-- ==== Sys2Proof/Word.lean ====
section
/-! DEFINITION. The widths of the command port and of the descriptor (00_scope.md R5 to R7).
Bit 0 is the least significant bit of every value (R6), which is `BitVec`'s own numbering. -/

namespace Sys2Proof

/-- A 64-bit value: the packed descriptor, the operand `arg` and the response `rsp_data` (`XLEN_DESC` = 64, R5, R57). -/
abbrev Word := BitVec 64

/-- An opcode, `OPW` = 6 bits (R5, R57). -/
abbrev Opcode := BitVec 6

/-- A command word, 70 bits: the opcode in bits 69:64 and the operand in bits 63:0 (R58). -/
abbrev CommandWord := BitVec 70

/-- A byte of a packed descriptor that a host serialises (R42); the block itself has no bytes. -/
abbrev Byte := BitVec 8

end Sys2Proof
end

