-- ==== Sys2Proof/Syntax.lean ====
section
/-! DEFINITION. The syntax: the commands as the port presents them, the 33 instructions, and the assembler's lines. -/

namespace Sys2Proof

/-- A command as it stands on the port: `cmd_op` and `cmd_arg` (30_encoding.md R57, R58). Any opcode, reserved ones too. -/
structure Command where
  op : Opcode
  arg : Word
deriving DecidableEq, Repr

/-- The four classes of a descriptor (41_classify.md R90), in the order of their codes (30_encoding.md R61). -/
inductive SegmentType where
  | notPresent
  | system
  | code
  | data
deriving DecidableEq, Repr

/-- The 33 instructions, one constructor per row of the opcode map (30_encoding.md R60). Each carries the whole 64-bit
`arg` of its command word (R58), also where it uses only some of the bits (R59): no bit of a command is lost. -/
inductive Instr where
  /-- `DEC`, R69: load all nine fields from the packed descriptor `arg`. -/
  | dec (arg : Word)
  /-- `ENC`, R70: answer the packed descriptor. -/
  | enc (arg : Word)
  /-- `GET.LIMIT`, R81: answer `limit`, zero-extended. -/
  | getLimit (arg : Word)
  /-- `GET.BASE`, R82: answer `base`, zero-extended. -/
  | getBase (arg : Word)
  /-- `GET.TYPE`, R83: answer `type`, zero-extended. -/
  | getType (arg : Word)
  /-- `GET.RING`, R84: answer `ring`, zero-extended. -/
  | getRing (arg : Word)
  /-- `GET.PRESENT`, R85: answer `present`, zero-extended. -/
  | getPresent (arg : Word)
  /-- `GET.AVL`, R86: answer `avlBit`, zero-extended. -/
  | getAvl (arg : Word)
  /-- `GET.USE32`, R87: answer `use32`, zero-extended. -/
  | getUse32 (arg : Word)
  /-- `GET.USE64`, R88: answer `use64`, zero-extended. -/
  | getUse64 (arg : Word)
  /-- `GET.PGRAN`, R89: answer `pageGranularity`, zero-extended. -/
  | getPgran (arg : Word)
  /-- `SET.LIMIT`, R72: write the low bits of `arg` to `limit`. -/
  | setLimit (arg : Word)
  /-- `SET.BASE`, R73: write the low bits of `arg` to `base`. -/
  | setBase (arg : Word)
  /-- `SET.TYPE`, R74: write the low bits of `arg` to `type`. -/
  | setType (arg : Word)
  /-- `SET.RING`, R75: write the low bits of `arg` to `ring`. -/
  | setRing (arg : Word)
  /-- `SET.PRESENT`, R76: write the low bits of `arg` to `present`. -/
  | setPresent (arg : Word)
  /-- `SET.AVL`, R77: write the low bits of `arg` to `avlBit`. -/
  | setAvl (arg : Word)
  /-- `SET.USE32`, R78: write the low bits of `arg` to `use32`. -/
  | setUse32 (arg : Word)
  /-- `SET.USE64`, R79: write the low bits of `arg` to `use64`. -/
  | setUse64 (arg : Word)
  /-- `SET.PGRAN`, R80: write the low bits of `arg` to `pageGranularity`. -/
  | setPgran (arg : Word)
  /-- `CLASSIFY`, R94: answer the SegmentType code. -/
  | classify (arg : Word)
  /-- `ATTRS`, R95: answer the attribute word. -/
  | attrs (arg : Word)
  /-- `ISXD`, R96: answer whether the descriptor is expand-down data. -/
  | isxd (arg : Word)
  /-- `CSIZE`, R97: answer the code size, 0 for null. -/
  | csize (arg : Word)
  /-- `CHGTYPE`, R107: switch to the type coded by `arg[1:0]`. -/
  | chgtype (arg : Word)
  /-- `CLRRSV`, R108: clear the fields reserved for the present configuration. -/
  | clrrsv (arg : Word)
  /-- `NOTES`, R117: answer the notes word. -/
  | notes (arg : Word)
  /-- `BND.OVF`, R127: answer the overflow of the bounds. -/
  | bndOvf (arg : Word)
  /-- `BND.SIZE`, R128: answer the size. -/
  | bndSize (arg : Word)
  /-- `BND.IMIN`, R129: answer the least offset. -/
  | bndImin (arg : Word)
  /-- `BND.IMAX`, R130: answer the greatest offset. -/
  | bndImax (arg : Word)
  /-- `BND.LMIN`, R131: answer the least linear address. -/
  | bndLmin (arg : Word)
  /-- `BND.LMAX`, R132: answer the greatest linear address, clamped. -/
  | bndLmax (arg : Word)
deriving DecidableEq, Repr

/-- The operand of an assembly line (30_encoding.md R67): an unsigned literal, or a type's name (for `CHGTYPE`). -/
inductive AsmOperand where
  | literal (n : Nat)
  | typeName (t : SegmentType)
deriving DecidableEq, Repr

/-- One line of assembly, `MNEMONIC` or `MNEMONIC operand` (30_encoding.md R67); the mnemonic is one of R60 or one of
the pseudo-instructions of R68. -/
structure AsmLine where
  mnemonic : String
  operand : Option AsmOperand
deriving DecidableEq, Repr

end Sys2Proof
end

