-- ==== Sys2Proof/WellFormed.lean ====
section
/-! DEFINITION. What is checked of the input. A term of `Instr` needs no check: its one operand has exactly 64 bits, and
every value of it is an operand (30_encoding.md R59). The checks stand before it: is a command on the port one of the 33
defined ones, and is an assembly line one that the assembler takes. -/

namespace Sys2Proof

/-- The opcode is one of the 33 defined ones, written by groups: `op[5:4]` selects the group and `op[3:0]` the member
(30_encoding.md R58); the other 31 are reserved (R66). -/
def Command.wellFormed (c : Command) : Bool :=
  let member := (c.op.extractLsb' 0 4).toNat
  match (c.op.extractLsb' 4 2).toNat with
  | 0 => member ≤ 1
  | 1 => member ≤ 8
  | 2 => member ≤ 8
  | _ => member ≤ 13 && member != 7

/-- The mnemonics that take an operand (R59, R60). -/
def operandMnemonics : List String :=
  ["DEC", "SET.LIMIT", "SET.BASE", "SET.TYPE", "SET.RING", "SET.PRESENT", "SET.AVL", "SET.USE32", "SET.USE64",
   "SET.PGRAN", "CHGTYPE"]

/-- The mnemonics that take none (R59, R60), the pseudo-instructions among them (R68). -/
def bareMnemonics : List String :=
  ["ENC", "GET.LIMIT", "GET.BASE", "GET.TYPE", "GET.RING", "GET.PRESENT", "GET.AVL", "GET.USE32", "GET.USE64",
   "GET.PGRAN", "CLASSIFY", "ATTRS", "ISXD", "CSIZE", "CLRRSV", "NOTES", "BND.OVF", "BND.SIZE", "BND.IMIN",
   "BND.IMAX", "BND.LMIN", "BND.LMAX", "CHG.NP", "CHG.SYS", "CHG.CODE", "CHG.DATA", "CLEAR", "LOADDEF"]

/-- The assembler takes the line (R67): a known mnemonic, an operand exactly where the command takes one, no literal
above `2^64 - 1`, a type's name only for `CHGTYPE`. -/
def AsmLine.wellFormed (l : AsmLine) : Bool :=
  match l.operand with
  | none => bareMnemonics.contains l.mnemonic
  | some (.literal n) => operandMnemonics.contains l.mnemonic && decide (n < 2 ^ 64)
  | some (.typeName _) => l.mnemonic == "CHGTYPE"

end Sys2Proof
end

