-- ==== Sys2Proof/Decode.lean ====
section
/-! DEFINITION. The decoder, total on every command and on every command word, and after it the encoder, both written
from the opcode map (30_encoding.md R58, R60). -/

namespace Sys2Proof

/-- Why a command word is no instruction. -/
inductive DecodeError where
  /-- The opcode is one of the 31 reserved ones (30_encoding.md R66). -/
  | reservedOpcode (op : Opcode)
  /-- The number has a bit above bit 69: it is no command word (R58). -/
  | wordTooWide
deriving DecidableEq, Repr

/-- The command word `(op[5:0], arg[63:0])` of a command (R58). -/
def Command.toWord (c : Command) : CommandWord := c.op ++ c.arg

/-- The command of a command word: `op` is bits 69:64, `arg` is bits 63:0 (R58). -/
def Command.ofWord (w : CommandWord) : Command where
  op := w.extractLsb' 64 6
  arg := w.extractLsb' 0 64

/-- Group 00, codec words (R58, R60). -/
def codecRows : List (Opcode × (Word → Instr)) :=
  [(0x00#6, .dec),
   (0x01#6, .enc)]

/-- Group 01, field reads (R58, R60). -/
def readRows : List (Opcode × (Word → Instr)) :=
  [(0x10#6, .getLimit),
   (0x11#6, .getBase),
   (0x12#6, .getType),
   (0x13#6, .getRing),
   (0x14#6, .getPresent),
   (0x15#6, .getAvl),
   (0x16#6, .getUse32),
   (0x17#6, .getUse64),
   (0x18#6, .getPgran)]

/-- Group 10, field writes (R58, R60). -/
def writeRows : List (Opcode × (Word → Instr)) :=
  [(0x20#6, .setLimit),
   (0x21#6, .setBase),
   (0x22#6, .setType),
   (0x23#6, .setRing),
   (0x24#6, .setPresent),
   (0x25#6, .setAvl),
   (0x26#6, .setUse32),
   (0x27#6, .setUse64),
   (0x28#6, .setPgran)]

/-- Group 11, derived functions and transitions (R58, R60). -/
def derivedRows : List (Opcode × (Word → Instr)) :=
  [(0x30#6, .classify),
   (0x31#6, .attrs),
   (0x32#6, .isxd),
   (0x33#6, .csize),
   (0x34#6, .chgtype),
   (0x35#6, .clrrsv),
   (0x36#6, .notes)]

/-- Group 11, segment bounds (R58, R60). -/
def boundsRows : List (Opcode × (Word → Instr)) :=
  [(0x38#6, .bndOvf),
   (0x39#6, .bndSize),
   (0x3A#6, .bndImin),
   (0x3B#6, .bndImax),
   (0x3C#6, .bndLmin),
   (0x3D#6, .bndLmax)]

/-- The opcode map: the 33 defined opcodes (R60). -/
def opcodeRows : List (Opcode × (Word → Instr)) :=
  codecRows ++ readRows ++ writeRows ++ derivedRows ++ boundsRows

/-- The instruction of a command. All six opcode bits are matched, `arg` plays no part (R60, R66). -/
def decodeCommand (c : Command) : Except DecodeError Instr :=
  match opcodeRows.lookup c.op with
  | some row => .ok (row c.arg)
  | none => .error (.reservedOpcode c.op)

/-- The instruction of a 70-bit command word (R58). -/
def decode (w : CommandWord) : Except DecodeError Instr :=
  decodeCommand (Command.ofWord w)

/-- The instruction whose bits are the number `w`, bit 0 the least significant, as `spec/opcode_table.json` numbers
them. Bits from `nbits` up are 0; a number with a bit above bit 69 is no command word and is refused. DESIGN CHOICE, safe
(log entry 8): the spec gives a command word no form in bytes, so no byte order enters here. -/
def decodeNumber (nbits w : Nat) : Except DecodeError Instr :=
  if w % 2 ^ nbits < 2 ^ 70 then decode (BitVec.ofNat 70 (w % 2 ^ nbits)) else .error .wordTooWide

/-- `decodeNumber` for the host: `none` where the decoder refuses. -/
def decodeTableWord (nbits w : Nat) : Option Instr :=
  match decodeNumber nbits w with
  | .ok i => some i
  | .error _ => none

/-- The opcode of an instruction (R60). -/
def Instr.opcode : Instr → Opcode
  | .dec _ => 0x00#6
  | .enc _ => 0x01#6
  | .getLimit _ => 0x10#6
  | .getBase _ => 0x11#6
  | .getType _ => 0x12#6
  | .getRing _ => 0x13#6
  | .getPresent _ => 0x14#6
  | .getAvl _ => 0x15#6
  | .getUse32 _ => 0x16#6
  | .getUse64 _ => 0x17#6
  | .getPgran _ => 0x18#6
  | .setLimit _ => 0x20#6
  | .setBase _ => 0x21#6
  | .setType _ => 0x22#6
  | .setRing _ => 0x23#6
  | .setPresent _ => 0x24#6
  | .setAvl _ => 0x25#6
  | .setUse32 _ => 0x26#6
  | .setUse64 _ => 0x27#6
  | .setPgran _ => 0x28#6
  | .classify _ => 0x30#6
  | .attrs _ => 0x31#6
  | .isxd _ => 0x32#6
  | .csize _ => 0x33#6
  | .chgtype _ => 0x34#6
  | .clrrsv _ => 0x35#6
  | .notes _ => 0x36#6
  | .bndOvf _ => 0x38#6
  | .bndSize _ => 0x39#6
  | .bndImin _ => 0x3A#6
  | .bndImax _ => 0x3B#6
  | .bndLmin _ => 0x3C#6
  | .bndLmax _ => 0x3D#6

/-- The operand of an instruction's command (R58). -/
def Instr.arg : Instr → Word
  | .dec a | .enc a | .getLimit a | .getBase a | .getType a | .getRing a
  | .getPresent a | .getAvl a | .getUse32 a | .getUse64 a | .getPgran a | .setLimit a
  | .setBase a | .setType a | .setRing a | .setPresent a | .setAvl a | .setUse32 a
  | .setUse64 a | .setPgran a | .classify a | .attrs a | .isxd a | .csize a
  | .chgtype a | .clrrsv a | .notes a | .bndOvf a | .bndSize a | .bndImin a
  | .bndImax a | .bndLmin a | .bndLmax a => a

/-- The command that stands for an instruction. -/
def encodeCommand (i : Instr) : Command where
  op := i.opcode
  arg := i.arg

/-- The 70-bit command word of an instruction (R58, R60). -/
def encode (i : Instr) : CommandWord := (encodeCommand i).toWord

end Sys2Proof
end

