-- ==== Sys2Proof/Config.lean ====
section
/-! DEFINITION. What is fixed when the block is built, and the values the spec leaves open. -/

namespace Sys2Proof

/-- The build-time configuration (00_scope.md R5, 10_state.md R33): no command reads or writes it, reset leaves it (R162). -/
structure Config where
  /-- `NP_SETS_PRESENT`: what `CHGTYPE` to `notPresent` writes to `present` (42_transitions.md R102). -/
  npSetsPresent : Bool := false
deriving DecidableEq, Repr

/-- This hardware's configuration: the value the spec decides, `NP_SETS_PRESENT = false` (R5, D21; log entry 5). -/
def Config.block : Config := {}

/-- `LATENCY`, the cycles a command takes: open, and no rule depends on it (R5, R167; log entry 6). -/
opaque Config.latency : Nat

/-- FREE VALUE: `rsp_data` of the `n`-th transaction in which `rst` is asserted, which the spec leaves undefined
(70_reset_and_hazards.md R161, U7; log entry 3). -/
opaque Config.freeRspData : Nat → Word

/-- FREE VALUE: `rsp_err` of the `n`-th transaction in which `rst` is asserted (R161, U7; log entry 3). -/
opaque Config.freeRspErr : Nat → Bool

end Sys2Proof
end

