-- ==== Sys2Proof/Machine/State.lean ====
section
/-! DEFINITION. The state: the descriptor register `D` and the signals of the command port. -/

namespace Sys2Proof.Machine

/-- A segment descriptor: the nine fields of 10_state.md R20, each exactly as wide as the spec says. -/
structure Descriptor where
  /-- `x[0]` (R21) -/
  limit : BitVec 20
  /-- `x[1]` (R22) -/
  base : BitVec 32
  /-- `x[2]` (R23) -/
  type : BitVec 5
  /-- `x[3]` (R24) -/
  ring : BitVec 2
  /-- `x[4]` (R25) -/
  present : Bool
  /-- `x[5]` (R26) -/
  avlBit : Bool
  /-- `x[6]` (R27) -/
  use32 : Bool
  /-- `x[7]` (R28) -/
  use64 : Bool
  /-- `x[8]` (R29) -/
  pageGranularity : Bool
deriving DecidableEq, Repr

/-- The all-zero descriptor: "default-construction (all-zero, not present)" (R37). -/
def Descriptor.zero : Descriptor where
  limit := 0
  base := 0
  type := 0
  ring := 0
  present := false
  avlBit := false
  use32 := false
  use64 := false
  pageGranularity := false

/-- The names of the nine field registers, in the order of their index `x[i]` (00_scope.md R8). -/
inductive Field where
  | limit | base | type | ring | present | avlBit | use32 | use64 | pageGranularity
deriving DecidableEq, Repr

/-- One transaction of the command port: the values of its input signals `rst`, `cmd_op` and `cmd_arg` (30_encoding.md R57). -/
structure Transaction where
  rst : Bool
  cmd : Command
deriving DecidableEq, Repr

/-- The machine between two transactions. `d` is the whole state the spec gives the block (10_state.md R20, R34);
`port`, `rspData` and `rspErr` are the port's signals (R57); `draws` is the model's own. -/
structure State where
  /-- The descriptor register `D` (R20). -/
  d : Descriptor
  /-- The transactions the host has yet to present, oldest first (log entry 1). -/
  port : List Transaction
  /-- Output `rsp_data` of the last transaction (log entry 2). -/
  rspData : Word
  /-- Output `rsp_err` of the last transaction (log entry 2). -/
  rspErr : Bool
  /-- The model's own: how many free values have been taken (log entry 3). -/
  draws : Nat
deriving DecidableEq, Repr

/-- The block raises no exception, for any command, operand or state (60_exceptions.md R140): there is no fault. -/
inductive Fault
deriving DecidableEq, Repr

/-- Why a step has no next state. -/
inductive Refusal where
  /-- An instruction without a meaning, raised by `exec`'s arms alone; no arm of this model raises it. Safe. -/
  | notModelled (mnemonic : String)
  /-- Raised by `step` when the host presents no transaction: the run has ended (70_reset_and_hazards.md R164). Safe (log entry 4). -/
  | noTransaction
deriving DecidableEq, Repr

/-- The machine right after reset: every field of `D` is 0 (10_state.md R37). The values of the other fields are
DESIGN CHOICES: nothing presented yet (log entry 1), outputs 0 (log entry 2), no free value taken (log entry 3). -/
def State.reset : State where
  d := Descriptor.zero
  port := []
  rspData := 0
  rspErr := false
  draws := 0

end Sys2Proof.Machine
end

