-- ==== Sys2Proof/Machine/Flags.lean ====
section
/-! DEFINITION. The block has no flags (10_state.md R32): every status is a value computed on demand and returned in the
response. Here are the forms in which a status or a number is returned (30_encoding.md R61, R65). -/

namespace Sys2Proof.Machine

/-- A boolean response: 0 or 1, bits 63:1 zero (R65). -/
def boolWord (b : Bool) : Word := (BitVec.ofBool b).setWidth 64

/-- A bounds value as the 64-bit two's-complement pattern of the exact integer (R65; `zext_64` and `sext_64` of
00_scope.md R7). -/
def intWord (x : Int) : Word := BitVec.ofInt 64 x

/-- The two-bit code of a SegmentType (R61). -/
def code2 : SegmentType → BitVec 2
  | .notPresent => 0
  | .system => 1
  | .code => 2
  | .data => 3

end Sys2Proof.Machine
end

