-- ==== Sys2Proof/Machine/Operands.lean ====
section
/-! DEFINITION. Operand assembly (30_encoding.md R59): each command uses the low bits of `arg` it needs and ignores the
rest; `arg` is never extended, scaled or shifted. -/

namespace Sys2Proof.Machine

/-- `arg[w-1:0]` (R59, 40_codec.md R71). -/
def argLow (w : Nat) (arg : Word) : BitVec w := arg.setWidth w

/-- `arg[0]`, the operand of a one-bit field: even writes 0, odd writes 1 (R71). -/
def argBit (arg : Word) : Bool := arg.getLsbD 0

/-- The SegmentType of a two-bit code; all four codes are defined (30_encoding.md R61). -/
def type2 (c : BitVec 2) : SegmentType :=
  if c = 0 then .notPresent else if c = 1 then .system else if c = 2 then .code else .data

/-- The target of `CHGTYPE`, coded by `arg[1:0]` (R59, 42_transitions.md R107). -/
def argTarget (arg : Word) : SegmentType := type2 (argLow 2 arg)

end Sys2Proof.Machine
end

