-- ==== Sys2Proof/Machine/Ops.lean ====
section
/-! DEFINITION. The named operations: reading and writing a field register, the responses, the reset event, and the two
shapes of a command. The block takes no exception (60_exceptions.md R140, R146), so there is no entry and no return; what
stands in that place is the error response (R143). -/

namespace Sys2Proof.Machine

/-- Reading the field register `x[i]`: its value zero-extended to 64 bits (00_scope.md R8, 30_encoding.md R65). -/
def Descriptor.get (d : Descriptor) : Field → Word
  | .limit => d.limit.setWidth 64
  | .base => d.base.setWidth 64
  | .type => d.type.setWidth 64
  | .ring => d.ring.setWidth 64
  | .present => boolWord d.present
  | .avlBit => boolWord d.avlBit
  | .use32 => boolWord d.use32
  | .use64 => boolWord d.use64
  | .pageGranularity => boolWord d.pageGranularity

/-- Writing the field register `x[i]`: the low bits of `arg`, as many as the field has; no other field changes
(40_codec.md R71). -/
def Descriptor.set (d : Descriptor) (f : Field) (arg : Word) : Descriptor :=
  match f with
  | .limit => { d with limit := argLow 20 arg }
  | .base => { d with base := argLow 32 arg }
  | .type => { d with type := argLow 5 arg }
  | .ring => { d with ring := argLow 2 arg }
  | .present => { d with present := argBit arg }
  | .avlBit => { d with avlBit := argBit arg }
  | .use32 => { d with use32 := argBit arg }
  | .use64 => { d with use64 := argBit arg }
  | .pageGranularity => { d with pageGranularity := argBit arg }

/-- The response of a defined command: `rsp_data` and `rsp_err = 0` (00_scope.md R8, 30_encoding.md R60). -/
def State.respond (s : State) (data : Word) : State :=
  { s with rspData := data, rspErr := false }

/-- The error response: `D` unchanged, `rsp_data = 0`, `rsp_err = 1`; nothing is recorded (R66, 60_exceptions.md R143). -/
def State.respondError (s : State) : State :=
  { s with rspData := 0, rspErr := true }

/-- The reset event (70_reset_and_hazards.md R160): all nine fields 0 and nothing else to reset. The transaction's
response is not defined (R161): a free value. -/
def State.applyReset (s : State) : State :=
  { s with
    d := Descriptor.zero
    rspData := Config.freeRspData s.draws
    rspErr := Config.freeRspErr s.draws
    draws := s.draws + 1 }

/-- A query: the response is a function of `D`, and `D` is unchanged (20_memory.md R44). -/
def query (f : Descriptor → Word) (s : State) : Host.Outcome State Fault Refusal :=
  .next (s.respond (f s.d))

/-- A mutating command: `D` is replaced as a whole and the response is 0 (R44, 30_encoding.md R65). -/
def mutate (f : Descriptor → Descriptor) (s : State) : Host.Outcome State Fault Refusal :=
  .next ({ s with d := f s.d }.respond 0)

end Sys2Proof.Machine
end

