-- ==== Sys2Proof/Machine/Classify.lean ====
section
/-! DEFINITION. Classification, attributes, expand-down, code size (41_classify.md): `CLASSIFY`, `ATTRS`, `ISXD`, `CSIZE`. -/

namespace Sys2Proof.Machine

/-- The attributes of a descriptor, a union tagged by its class; each class has its own attributes only (R91). -/
inductive Attributes where
  | notPresent
  | system (subtype : BitVec 4)
  | code (accessed readable conforming : Bool)
  | data (accessed writable expandDown : Bool)
deriving DecidableEq, Repr

/-- The sizes `codeSize` can return; its `null` is `none` of `Option CodeSize` (00_scope.md R10, 41_classify.md R93). -/
inductive CodeSize where
  | size16 | size32 | size64
deriving DecidableEq, Repr

/-- `classify(d)` (R90). -/
def Descriptor.classify (d : Descriptor) : SegmentType :=
  if d.present = false then .notPresent
  else if d.type.getLsbD 4 = false then .system
  else if d.type.getLsbD 3 = true then .code
  else .data

/-- `type[3:0]`, the subtype of a system descriptor (R91). -/
def Descriptor.subtype (d : Descriptor) : BitVec 4 := d.type.extractLsb' 0 4

/-- `attributesOf(d)` (R91). -/
def Descriptor.attributesOf (d : Descriptor) : Attributes :=
  match d.classify with
  | .notPresent => .notPresent
  | .system => .system d.subtype
  | .code => .code (d.type.getLsbD 0) (d.type.getLsbD 1) (d.type.getLsbD 2)
  | .data => .data (d.type.getLsbD 0) (d.type.getLsbD 1) (d.type.getLsbD 2)

/-- `isExpandDown(d)`: the `expandDown` attribute of a data segment, false for every other class (R92). -/
def Descriptor.isExpandDown (d : Descriptor) : Bool :=
  match d.attributesOf with
  | .notPresent => false
  | .system _ => false
  | .code _ _ _ => false
  | .data _ _ expandDown => expandDown

/-- `codeSize(d)` (R93), `none` for `null`. -/
def Descriptor.codeSize (d : Descriptor) : Option CodeSize :=
  match d.classify with
  | .notPresent => none
  | .system => none
  | .code =>
    if d.use32 && d.use64 then none
    else if d.use64 then some .size64
    else if d.use32 then some .size32
    else some .size16
  | .data =>
    if d.use64 then none
    else if d.use32 then some .size32
    else some .size16

/-- The payload of the attribute word, its bits 7:4 (30_encoding.md R62). -/
def Attributes.payload : Attributes → BitVec 4
  | .notPresent => 0
  | .system subtype => subtype
  | .code accessed readable conforming =>
    0#1 ++ BitVec.ofBool conforming ++ BitVec.ofBool readable ++ BitVec.ofBool accessed
  | .data accessed writable expandDown =>
    0#1 ++ BitVec.ofBool expandDown ++ BitVec.ofBool writable ++ BitVec.ofBool accessed

/-- The tag of the attribute word, its bits 1:0 (30_encoding.md R62). -/
def Attributes.tag : Attributes → SegmentType
  | .notPresent => .notPresent
  | .system _ => .system
  | .code _ _ _ => .code
  | .data _ _ _ => .data

/-- The attribute word (30_encoding.md R62): tag in bits 1:0, zero in bits 3:2, payload in bits 7:4, zero above. -/
def Attributes.word (a : Attributes) : Word :=
  0#56 ++ a.payload ++ 0#2 ++ code2 a.tag

/-- The code-size response: the number, and 0 for `null` (30_encoding.md R63). -/
def codeSizeWord : Option CodeSize → Word
  | none => 0
  | some .size16 => 16
  | some .size32 => 32
  | some .size64 => 64

/-- `CLASSIFY` (R94). -/
def execClassify (_arg : Word) (s : State) : Host.Outcome State Fault Refusal :=
  query (fun d => (code2 d.classify).setWidth 64) s

/-- `ATTRS` (R95). -/
def execAttrs (_arg : Word) (s : State) : Host.Outcome State Fault Refusal :=
  query (fun d => d.attributesOf.word) s

/-- `ISXD` (R96). -/
def execIsxd (_arg : Word) (s : State) : Host.Outcome State Fault Refusal :=
  query (fun d => boolWord d.isExpandDown) s

/-- `CSIZE` (R97). -/
def execCsize (_arg : Word) (s : State) : Host.Outcome State Fault Refusal :=
  query (fun d => codeSizeWord d.codeSize) s

end Sys2Proof.Machine
end

