-- ==== Sys2Proof/Machine/Bounds.lean ====
section
/-! DEFINITION. Segment bounds (44_bounds.md): `BND.OVF`, `BND.SIZE`, `BND.IMIN`, `BND.IMAX`, `BND.LMIN`, `BND.LMAX`. All
arithmetic is exact, over the integers; the one narrowing is the clamp of R125 (R120). -/

namespace Sys2Proof.Machine

/-- The result of `segmentBounds` (R120). -/
structure Bounds where
  overflow : Bool
  size : Int
  internalMin : Int
  internalMax : Int
  linearMin : Int
  linearMax : Int
deriving DecidableEq, Repr

/-- `clamp(x, lo, hi)` (00_scope.md R7). -/
def clamp (x lo hi : Int) : Int := if x < lo then lo else if x > hi then hi else x

/-- `unitSize` (R121). -/
def Descriptor.unitSize (d : Descriptor) : Int := if d.pageGranularity then 4096 else 1

/-- `topAddress`: by `use32` alone (R121). -/
def Descriptor.topAddress (d : Descriptor) : Int := if d.use32 then 0xFFFFFFFF else 0xFFFF

/-- A field's value as an integer, for the arithmetic of R120. -/
def fieldInt {n : Nat} (v : BitVec n) : Int := (v.toNat : Int)

/-- The clamp and the overflow of both branches (R125), around the unclamped greatest linear address `rawMax`. -/
def finishBounds (size internalMin internalMax linearMin rawMax : Int) : Bounds where
  overflow := decide (rawMax > 0xFFFFFFFF)
  size := size
  internalMin := internalMin
  internalMax := internalMax
  linearMin := linearMin
  linearMax := clamp rawMax 0 0xFFFFFFFF

/-- The expand-down branch (R123): the valid offsets are those above the limit. `size` may be negative (C7). -/
def Descriptor.expandDownBounds (d : Descriptor) : Bounds :=
  let internalMin := (fieldInt d.limit + 1) * d.unitSize
  let size := d.topAddress - internalMin + 1
  finishBounds size internalMin d.topAddress (fieldInt d.base) (fieldInt d.base + size - 1)

/-- The normal branch (R124): `size` is `internalMax + 1 - 1`, the formula as written (C2). -/
def Descriptor.normalBounds (d : Descriptor) : Bounds :=
  let internalMax := fieldInt d.limit * d.unitSize + (if d.pageGranularity then 4095 else 0)
  finishBounds (internalMax + 1 - 1) 0 internalMax (fieldInt d.base) (fieldInt d.base + internalMax)

/-- `segmentBounds(d)`: the expand-down branch exactly for expand-down data, the normal one for everything else (R122). -/
def Descriptor.segmentBounds (d : Descriptor) : Bounds :=
  if d.isExpandDown then d.expandDownBounds else d.normalBounds

/-- `BND.OVF` (R127). -/
def execBndOvf (_arg : Word) (s : State) : Host.Outcome State Fault Refusal :=
  query (fun d => boolWord d.segmentBounds.overflow) s

/-- `BND.SIZE` (R128). -/
def execBndSize (_arg : Word) (s : State) : Host.Outcome State Fault Refusal :=
  query (fun d => intWord d.segmentBounds.size) s

/-- `BND.IMIN` (R129). -/
def execBndImin (_arg : Word) (s : State) : Host.Outcome State Fault Refusal :=
  query (fun d => intWord d.segmentBounds.internalMin) s

/-- `BND.IMAX` (R130). -/
def execBndImax (_arg : Word) (s : State) : Host.Outcome State Fault Refusal :=
  query (fun d => intWord d.segmentBounds.internalMax) s

/-- `BND.LMIN` (R131). -/
def execBndLmin (_arg : Word) (s : State) : Host.Outcome State Fault Refusal :=
  query (fun d => intWord d.segmentBounds.linearMin) s

/-- `BND.LMAX` (R132). -/
def execBndLmax (_arg : Word) (s : State) : Host.Outcome State Fault Refusal :=
  query (fun d => intWord d.segmentBounds.linearMax) s

end Sys2Proof.Machine
end

