-- ==== Sys2Proof/Machine/Codec.lean ====
section
/-! DEFINITION. The descriptor format and the codec commands: `DEC`, `ENC`, `SET.*`, `GET.*` (30_encoding.md part 1,
40_codec.md). -/

namespace Sys2Proof.Machine

/-- `decode(v)` (30_encoding.md R50, R52). Of a split field the piece at the lower bits is the low-order part (R51). -/
def Descriptor.decode (v : Word) : Descriptor where
  limit := v.extractLsb' 48 4 ++ v.extractLsb' 0 16
  base := v.extractLsb' 56 8 ++ v.extractLsb' 16 24
  type := v.extractLsb' 40 5
  ring := v.extractLsb' 45 2
  present := v.getLsbD 47
  avlBit := v.getLsbD 52
  use64 := v.getLsbD 53
  use32 := v.getLsbD 54
  pageGranularity := v.getLsbD 55

/-- `mask_n(v)` placed at bit `k` of the packed word: one piece of R53. -/
def piece (n : Nat) {m : Nat} (v : BitVec m) (k : Nat) : Word := (v.setWidth n).setWidth 64 <<< k

/-- `encode(d)` (30_encoding.md R53): eleven masked and shifted pieces, or-ed together. -/
def Descriptor.encode (d : Descriptor) : Word :=
  piece 16 d.limit 0
  ||| piece 24 d.base 16
  ||| piece 5 d.type 40
  ||| piece 2 d.ring 45
  ||| piece 1 (BitVec.ofBool d.present) 47
  ||| piece 4 (d.limit >>> 16) 48
  ||| piece 1 (BitVec.ofBool d.avlBit) 52
  ||| piece 1 (BitVec.ofBool d.use64) 53
  ||| piece 1 (BitVec.ofBool d.use32) 54
  ||| piece 1 (BitVec.ofBool d.pageGranularity) 55
  ||| piece 8 (d.base >>> 24) 56

/-- The eight bytes of a packed descriptor as a host lays them out, byte 0 (at the lowest address) first: byte `k` is
`v[8k+7:8k]` (20_memory.md R42). The block itself never splits the word. -/
def wordBytes (v : Word) : List Byte :=
  (List.range 8).map fun k => v.extractLsb' (8 * k) 8

/-- The packed descriptor that a host reads from bytes in that order, byte 0 first (R42). -/
def bytesWord : List Byte → Word
  | [] => 0
  | b :: bs => (bytesWord bs <<< 8) ||| b.setWidth 64

/-- `DEC` (40_codec.md R69). -/
def execDec (arg : Word) (s : State) : Host.Outcome State Fault Refusal :=
  mutate (fun _ => Descriptor.decode arg) s

/-- `ENC` (40_codec.md R70). -/
def execEnc (_arg : Word) (s : State) : Host.Outcome State Fault Refusal :=
  query Descriptor.encode s

/-- `SET.LIMIT` (40_codec.md R72, R71). -/
def execSetLimit (arg : Word) (s : State) : Host.Outcome State Fault Refusal :=
  mutate (·.set .limit arg) s

/-- `SET.BASE` (40_codec.md R73, R71). -/
def execSetBase (arg : Word) (s : State) : Host.Outcome State Fault Refusal :=
  mutate (·.set .base arg) s

/-- `SET.TYPE` (40_codec.md R74, R71). -/
def execSetType (arg : Word) (s : State) : Host.Outcome State Fault Refusal :=
  mutate (·.set .type arg) s

/-- `SET.RING` (40_codec.md R75, R71). -/
def execSetRing (arg : Word) (s : State) : Host.Outcome State Fault Refusal :=
  mutate (·.set .ring arg) s

/-- `SET.PRESENT` (40_codec.md R76, R71). -/
def execSetPresent (arg : Word) (s : State) : Host.Outcome State Fault Refusal :=
  mutate (·.set .present arg) s

/-- `SET.AVL` (40_codec.md R77, R71). -/
def execSetAvl (arg : Word) (s : State) : Host.Outcome State Fault Refusal :=
  mutate (·.set .avlBit arg) s

/-- `SET.USE32` (40_codec.md R78, R71). -/
def execSetUse32 (arg : Word) (s : State) : Host.Outcome State Fault Refusal :=
  mutate (·.set .use32 arg) s

/-- `SET.USE64` (40_codec.md R79, R71). -/
def execSetUse64 (arg : Word) (s : State) : Host.Outcome State Fault Refusal :=
  mutate (·.set .use64 arg) s

/-- `SET.PGRAN` (40_codec.md R80, R71). -/
def execSetPgran (arg : Word) (s : State) : Host.Outcome State Fault Refusal :=
  mutate (·.set .pageGranularity arg) s

/-- `GET.LIMIT` (40_codec.md R81). -/
def execGetLimit (_arg : Word) (s : State) : Host.Outcome State Fault Refusal :=
  query (·.get .limit) s

/-- `GET.BASE` (40_codec.md R82). -/
def execGetBase (_arg : Word) (s : State) : Host.Outcome State Fault Refusal :=
  query (·.get .base) s

/-- `GET.TYPE` (40_codec.md R83). -/
def execGetType (_arg : Word) (s : State) : Host.Outcome State Fault Refusal :=
  query (·.get .type) s

/-- `GET.RING` (40_codec.md R84). -/
def execGetRing (_arg : Word) (s : State) : Host.Outcome State Fault Refusal :=
  query (·.get .ring) s

/-- `GET.PRESENT` (40_codec.md R85). -/
def execGetPresent (_arg : Word) (s : State) : Host.Outcome State Fault Refusal :=
  query (·.get .present) s

/-- `GET.AVL` (40_codec.md R86). -/
def execGetAvl (_arg : Word) (s : State) : Host.Outcome State Fault Refusal :=
  query (·.get .avlBit) s

/-- `GET.USE32` (40_codec.md R87). -/
def execGetUse32 (_arg : Word) (s : State) : Host.Outcome State Fault Refusal :=
  query (·.get .use32) s

/-- `GET.USE64` (40_codec.md R88). -/
def execGetUse64 (_arg : Word) (s : State) : Host.Outcome State Fault Refusal :=
  query (·.get .use64) s

/-- `GET.PGRAN` (40_codec.md R89). -/
def execGetPgran (_arg : Word) (s : State) : Host.Outcome State Fault Refusal :=
  query (·.get .pageGranularity) s

end Sys2Proof.Machine
end

