-- ==== Sys2Proof/Machine/Notes.lean ====
section
/-! DEFINITION. Configuration notes (43_notes.md): `NOTES`, in the spec's order of evaluation. -/

namespace Sys2Proof.Machine

/-- The tags (R110). -/
inductive Tag where
  | reserved | invalid | compat286 | compat386 | compatX8664
deriving DecidableEq, Repr

/-- The minimum CPU level, `286 < 386 < x86-64` (R110). -/
inductive CpuLevel where
  | i286 | i386 | x8664
deriving DecidableEq, Repr

/-- The three working values of the computation (R110). -/
structure NotesWork where
  out : List Tag
  min : CpuLevel
  suppress : Bool
deriving DecidableEq, Repr

/-- "Escalate" to 386: the larger of the level and 386 (R110). -/
def CpuLevel.atLeast386 : CpuLevel → CpuLevel
  | .i286 => .i386
  | .i386 => .i386
  | .x8664 => .x8664

/-- The compat tag of a level (R116). -/
def CpuLevel.tag : CpuLevel → Tag
  | .i286 => .compat286
  | .i386 => .compat386
  | .x8664 => .compatX8664

/-- Step 1's condition: some 386-only field is used (R111). -/
def Descriptor.uses386 (d : Descriptor) : Bool :=
  d.limit.extractLsb' 16 4 != 0 || d.avlBit || d.use64 || d.use32 || d.pageGranularity
    || d.base.extractLsb' 24 8 != 0

/-- The start of the computation and step 1 (R110, R111). -/
def notesBaseline (d : Descriptor) : NotesWork where
  out := []
  min := if d.uses386 then .i386 else .i286
  suppress := false

/-- Step 2a (R112). -/
def notesSystemFlags (d : Descriptor) (w : NotesWork) : NotesWork :=
  if d.use64 || d.use32 then { w with out := w.out ++ [.reserved] } else w

/-- The subtypes that are no legal descriptor (R113). -/
def invalidSubtypes : List (BitVec 4) := [0, 4, 6, 7, 8, 10, 12, 13, 14, 15]

/-- The 386-only subtypes as the document lists them; where the two lists overlap the invalid one wins (R113, C4). -/
def i386Subtypes : List (BitVec 4) := [9, 11, 12, 14, 15]

/-- Step 2b (R113). -/
def notesSubtype (d : Descriptor) (w : NotesWork) : NotesWork :=
  if d.subtype ∈ invalidSubtypes then { w with out := w.out ++ [.invalid], suppress := true }
  else if d.subtype ∈ i386Subtypes then { w with min := w.min.atLeast386 }
  else w

/-- Step 3 (R114). -/
def notesCode (d : Descriptor) (w : NotesWork) : NotesWork :=
  match d.codeSize with
  | none => { w with out := w.out ++ [.invalid], suppress := true }
  | some .size64 =>
    { w with
      min := .x8664
      out := if d.base ≠ 0 ∨ d.limit ≠ 0 then w.out ++ [.reserved] else w.out }
  | some .size32 => w
  | some .size16 => w

/-- Step 4 (R115). -/
def notesData (d : Descriptor) (w : NotesWork) : NotesWork :=
  if d.use64 then { w with out := w.out ++ [.reserved], suppress := true } else w

/-- Step 5 (R116). -/
def notesFinish (w : NotesWork) : List Tag :=
  if w.suppress then w.out else w.out ++ [w.min.tag]

/-- `configurationNotes(d)` (R110): the steps in their order. -/
def Descriptor.configurationNotes (d : Descriptor) : List Tag :=
  let w := notesBaseline d
  match d.classify with
  | .notPresent => notesFinish w
  | .system => notesFinish (notesSubtype d (notesSystemFlags d w))
  | .code => notesFinish (notesCode d w)
  | .data => notesFinish (notesData d w)

/-- `n_level`, bits 4:3 of the notes word: which compat tag, 0 where there is none (30_encoding.md R64). -/
def notesLevel (n : List Tag) : BitVec 2 :=
  if .compatX8664 ∈ n then 2 else if .compat386 ∈ n then 1 else 0

/-- `n_compat`, bit 2 of the notes word (30_encoding.md R64). -/
def notesCompat (n : List Tag) : Bool :=
  decide (.compat286 ∈ n) || decide (.compat386 ∈ n) || decide (.compatX8664 ∈ n)

/-- The notes word (30_encoding.md R64). -/
def notesWord (n : List Tag) : Word :=
  0#59 ++ notesLevel n ++ BitVec.ofBool (notesCompat n) ++ BitVec.ofBool (decide (.invalid ∈ n))
    ++ BitVec.ofBool (decide (.reserved ∈ n))

/-- `NOTES` (R117). -/
def execNotes (_arg : Word) (s : State) : Host.Outcome State Fault Refusal :=
  query (fun d => notesWord d.configurationNotes) s

end Sys2Proof.Machine
end

