-- ==== Sys2Proof/Machine/Transitions.lean ====
section
/-! DEFINITION. Type switching and reserved-field clearing (42_transitions.md): `CHGTYPE`, `CLRRSV`. Fields that a
transition does not name keep their value (R101). -/

namespace Sys2Proof.Machine

/-- `toNotPresent(d)` (R102): every field is written; `present` takes the configuration's `NP_SETS_PRESENT`. -/
def toNotPresent (c : Config) : Descriptor :=
  { Descriptor.zero with present := c.npSetsPresent }

/-- `toSystem(d)` (R103). -/
def Descriptor.toSystem (d : Descriptor) : Descriptor :=
  { d with present := true, type := 0b00001#5, use32 := false, use64 := false }

/-- `toCode(d)` (R104): neither size flag is cleared (C5). -/
def Descriptor.toCode (d : Descriptor) : Descriptor :=
  { d with present := true, type := 0b11000#5 }

/-- `toData(d)` (R105). -/
def Descriptor.toData (d : Descriptor) : Descriptor :=
  { d with present := true, type := 0b10000#5, use64 := false }

/-- `changeType(d, t)` (R100): nothing where the class is `t` already. The configuration is an argument, so that a
statement can quantify over both builds (D21). -/
def Descriptor.changeType (c : Config) (d : Descriptor) (t : SegmentType) : Descriptor :=
  if d.classify = t then d
  else
    match t with
    | .notPresent => toNotPresent c
    | .system => d.toSystem
    | .code => d.toCode
    | .data => d.toData

/-- `clearAllReserved(d)` (R106): class and code size are those before the command. -/
def Descriptor.clearAllReserved (d : Descriptor) : Descriptor :=
  match d.classify with
  | .notPresent => d
  | .system => { d with use64 := false, use32 := false }
  | .code => if d.codeSize = some .size64 then { d with base := 0, limit := 0 } else d
  | .data => { d with use64 := false }

/-- `CHGTYPE` in a block of configuration `c` (R107). -/
def chgtypeUnder (c : Config) (arg : Word) (s : State) : Host.Outcome State Fault Refusal :=
  mutate (fun d => d.changeType c (argTarget arg)) s

/-- `CHGTYPE` (R107) in this hardware's configuration. -/
def execChgtype (arg : Word) (s : State) : Host.Outcome State Fault Refusal :=
  chgtypeUnder Config.block arg s

/-- `CLRRSV` (R108). -/
def execClrrsv (_arg : Word) (s : State) : Host.Outcome State Fault Refusal :=
  mutate (fun d => d.clearAllReserved) s

end Sys2Proof.Machine
end

