-- ==== Sys2Proof/Machine/Dispatch.lean ====
section
/-! DEFINITION. One arm per instruction: the meaning it calls. -/

namespace Sys2Proof.Machine

def exec (i : Instr) (s : State) : Host.Outcome State Fault Refusal :=
  match i with
  | .dec arg => Sys2Proof.Machine.execDec arg s
  | .enc arg => Sys2Proof.Machine.execEnc arg s
  | .getLimit arg => Sys2Proof.Machine.execGetLimit arg s
  | .getBase arg => Sys2Proof.Machine.execGetBase arg s
  | .getType arg => Sys2Proof.Machine.execGetType arg s
  | .getRing arg => Sys2Proof.Machine.execGetRing arg s
  | .getPresent arg => Sys2Proof.Machine.execGetPresent arg s
  | .getAvl arg => Sys2Proof.Machine.execGetAvl arg s
  | .getUse32 arg => Sys2Proof.Machine.execGetUse32 arg s
  | .getUse64 arg => Sys2Proof.Machine.execGetUse64 arg s
  | .getPgran arg => Sys2Proof.Machine.execGetPgran arg s
  | .setLimit arg => Sys2Proof.Machine.execSetLimit arg s
  | .setBase arg => Sys2Proof.Machine.execSetBase arg s
  | .setType arg => Sys2Proof.Machine.execSetType arg s
  | .setRing arg => Sys2Proof.Machine.execSetRing arg s
  | .setPresent arg => Sys2Proof.Machine.execSetPresent arg s
  | .setAvl arg => Sys2Proof.Machine.execSetAvl arg s
  | .setUse32 arg => Sys2Proof.Machine.execSetUse32 arg s
  | .setUse64 arg => Sys2Proof.Machine.execSetUse64 arg s
  | .setPgran arg => Sys2Proof.Machine.execSetPgran arg s
  | .classify arg => Sys2Proof.Machine.execClassify arg s
  | .attrs arg => Sys2Proof.Machine.execAttrs arg s
  | .isxd arg => Sys2Proof.Machine.execIsxd arg s
  | .csize arg => Sys2Proof.Machine.execCsize arg s
  | .chgtype arg => Sys2Proof.Machine.execChgtype arg s
  | .clrrsv arg => Sys2Proof.Machine.execClrrsv arg s
  | .notes arg => Sys2Proof.Machine.execNotes arg s
  | .bndOvf arg => Sys2Proof.Machine.execBndOvf arg s
  | .bndSize arg => Sys2Proof.Machine.execBndSize arg s
  | .bndImin arg => Sys2Proof.Machine.execBndImin arg s
  | .bndImax arg => Sys2Proof.Machine.execBndImax arg s
  | .bndLmin arg => Sys2Proof.Machine.execBndLmin arg s
  | .bndLmax arg => Sys2Proof.Machine.execBndLmax arg s

end Sys2Proof.Machine
end

