-- ==== Sys2Proof/Machine/Port.lean ====
section
/-! DEFINITION. The command port (30_encoding.md R57): taking the next transaction, running it, presenting one. -/

namespace Sys2Proof.Machine

/-- The next transaction and the state without it; `none` where the host presents nothing. -/
def State.takeTransaction (s : State) : Option (Transaction × State) :=
  match s.port with
  | [] => none
  | t :: rest => some (t, { s with port := rest })

/-- Running a command: a defined one by its meaning, a reserved one by the error response, a next state with `D`
unchanged (R66, 60_exceptions.md R143). It is decided from the opcode alone, before anything else (R145). -/
def runCommand (c : Command) (s : State) : Host.Outcome State Fault Refusal :=
  match decodeCommand c with
  | .ok i => exec i s
  | .error _ => .next s.respondError

/-- One transaction, one atomic step. `rst` wins over the command beside it, which has no effect
(70_reset_and_hazards.md R160, R161). -/
def transact (t : Transaction) (s : State) : Host.Outcome State Fault Refusal :=
  if t.rst then .next s.applyReset else runCommand t.cmd s

/-- The host presents a command before everything else that still stands at the port. -/
def State.present (s : State) (c : Command) : State :=
  { s with port := { rst := false, cmd := c } :: s.port }

/-- The command whose command word is the number `w`, its bits from `nbits` up being 0 (R58). The port has no signal for
a bit above bit 69. -/
def numberCommand (nbits w : Nat) : Command :=
  Command.ofWord (BitVec.ofNat 70 (w % 2 ^ nbits))

end Sys2Proof.Machine
end

