-- ==== Sys2Proof/Machine/Step.lean ====
section
/-! DEFINITION. One step: the next transaction of the port. -/

namespace Sys2Proof.Machine

/-- One step is one transaction (00_scope.md R11). Where the host presents none the run has ended (R164; log entry 4). -/
def step (s : State) : Host.Outcome State Fault Refusal :=
  match s.takeTransaction with
  | none => .refused .noTransaction
  | some (t, s') => transact t s'

/-- The state in which the host presents the command word `w` next (log entry 1). -/
def State.withFetchWord (s : State) (nbits w : Nat) : State :=
  s.present (numberCommand nbits w)

end Sys2Proof.Machine
end

