-- ==== Sys2Proof/Machine/Assembler.lean ====
section
/-! DEFINITION. The assembler (30_encoding.md R67, R68) and the listing form of a command word (R58). Host-side text, no
part of the block: it says which command a line stands for. What R67 does not settle of the text is log entry 9. -/

namespace Sys2Proof.Machine

/-- Why the assembler rejects a line. -/
inductive AsmError where
  /-- No mnemonic of R60 or R68. -/
  | unknownMnemonic
  /-- The command takes an operand and the line has none (R67). -/
  | missingOperand
  /-- The command takes no operand and the line has one (R67). -/
  | unexpectedOperand
  /-- A literal above `2^64 - 1` (R67). -/
  | literalTooLarge
  /-- A type's name, and the command is not `CHGTYPE` (R67). -/
  | typeNameNotAllowed
  /-- The second word is neither a literal nor a type's name (R67). -/
  | badOperand
  /-- More than two words on the line (R67). -/
  | tooManyWords
deriving DecidableEq, Repr

/-- The mnemonics of R60 whose command takes an operand (R59). -/
def operandRows : List (String × (Word → Instr)) :=
  [("DEC", .dec), ("SET.LIMIT", .setLimit), ("SET.BASE", .setBase), ("SET.TYPE", .setType), ("SET.RING", .setRing),
   ("SET.PRESENT", .setPresent), ("SET.AVL", .setAvl), ("SET.USE32", .setUse32), ("SET.USE64", .setUse64),
   ("SET.PGRAN", .setPgran), ("CHGTYPE", .chgtype)]

/-- The mnemonics of R60 whose command takes none; they assemble with `arg = 0` (R67). -/
def bareRows : List (String × (Word → Instr)) :=
  [("ENC", .enc), ("GET.LIMIT", .getLimit), ("GET.BASE", .getBase), ("GET.TYPE", .getType), ("GET.RING", .getRing),
   ("GET.PRESENT", .getPresent), ("GET.AVL", .getAvl), ("GET.USE32", .getUse32), ("GET.USE64", .getUse64),
   ("GET.PGRAN", .getPgran), ("CLASSIFY", .classify), ("ATTRS", .attrs), ("ISXD", .isxd), ("CSIZE", .csize),
   ("CLRRSV", .clrrsv), ("NOTES", .notes), ("BND.OVF", .bndOvf), ("BND.SIZE", .bndSize), ("BND.IMIN", .bndImin),
   ("BND.IMAX", .bndImax), ("BND.LMIN", .bndLmin), ("BND.LMAX", .bndLmax)]

/-- The pseudo-instructions and the lines they expand to (R68). -/
def pseudoRows : List (String × AsmLine) :=
  [("CHG.NP", ⟨"CHGTYPE", some (.literal 0)⟩), ("CHG.SYS", ⟨"CHGTYPE", some (.literal 1)⟩),
   ("CHG.CODE", ⟨"CHGTYPE", some (.literal 2)⟩), ("CHG.DATA", ⟨"CHGTYPE", some (.literal 3)⟩),
   ("CLEAR", ⟨"DEC", some (.literal 0)⟩), ("LOADDEF", ⟨"DEC", some (.literal 0x00CF9A000000FFFF)⟩)]

/-- The code a type's name stands for (R61, R67). -/
def typeCode : SegmentType → Nat
  | .notPresent => 0
  | .system => 1
  | .code => 2
  | .data => 3

/-- The instruction of a line that is no pseudo-instruction (R67): the literal goes to `arg` unchanged, it is not masked. -/
def assembleCore (l : AsmLine) : Except AsmError Instr :=
  match operandRows.lookup l.mnemonic, bareRows.lookup l.mnemonic with
  | some row, _ =>
    match l.operand with
    | none => .error .missingOperand
    | some (.literal n) => if n < 2 ^ 64 then .ok (row (BitVec.ofNat 64 n)) else .error .literalTooLarge
    | some (.typeName t) =>
      if l.mnemonic = "CHGTYPE" then .ok (row (BitVec.ofNat 64 (typeCode t))) else .error .typeNameNotAllowed
  | none, some row =>
    match l.operand with
    | none => .ok (row 0)
    | some _ => .error .unexpectedOperand
  | none, none => .error .unknownMnemonic

/-- The instruction of a line: a pseudo-instruction is expanded first (R68). -/
def assembleLine (l : AsmLine) : Except AsmError Instr :=
  match pseudoRows.lookup l.mnemonic with
  | none => assembleCore l
  | some expansion =>
    match l.operand with
    | none => assembleCore expansion
    | some _ => .error .unexpectedOperand

/-- A character between words. -/
def isBlank (c : Char) : Bool := c == ' ' || c == '\t'

/-- The words of a line; `word` holds the one being read, backwards. -/
def lineWords (word : List Char) : List Char → List (List Char)
  | [] => if word.isEmpty then [] else [word.reverse]
  | c :: cs =>
    if isBlank c then
      if word.isEmpty then lineWords [] cs else word.reverse :: lineWords [] cs
    else lineWords (c :: word) cs

/-- The value of a digit in a base up to 16. -/
def digitValue (base : Nat) (c : Char) : Option Nat :=
  let n := c.toNat
  let v := if 48 ≤ n ∧ n ≤ 57 then n - 48 else if 65 ≤ n ∧ n ≤ 70 then n - 55 else if 97 ≤ n ∧ n ≤ 102 then n - 87 else base
  if v < base then some v else none

/-- The value of digits with `_` separators, each between two digits; `afterDigit` says that a digit stands just before. -/
def digitsValue (base acc : Nat) (afterDigit : Bool) : List Char → Option Nat
  | [] => if afterDigit then some acc else none
  | c :: cs =>
    if c == '_' then if afterDigit then digitsValue base acc false cs else none
    else
      match digitValue base c with
      | some v => digitsValue base (acc * base + v) true cs
      | none => none

/-- An unsigned literal: decimal, `0x` hexadecimal or `0b` binary (R67). -/
def parseLiteral : List Char → Option Nat
  | '0' :: 'x' :: cs => digitsValue 16 0 false cs
  | '0' :: 'b' :: cs => digitsValue 2 0 false cs
  | cs => digitsValue 10 0 false cs

/-- The names of the types (R67). -/
def typeNames : List (String × SegmentType) :=
  [("notPresent", .notPresent), ("system", .system), ("code", .code), ("data", .data)]

/-- An operand: a type's name or a literal (R67). -/
def parseOperand (word : List Char) : Option AsmOperand :=
  match typeNames.lookup (String.ofList word) with
  | some t => some (.typeName t)
  | none => (parseLiteral word).map .literal

/-- One line of text, without its comment: `MNEMONIC` or `MNEMONIC operand` (R67). A line
without a word (blank, or a comment only) is taken as no command, `none`: DESIGN CHOICE, R67 does not say (log entry 9). -/
def parseLine (text : List Char) : Except AsmError (Option AsmLine) :=
  match lineWords [] (text.takeWhile (· != ';')) with
  | [] => .ok none
  | [m] => .ok (some ⟨String.ofList m, none⟩)
  | [m, w] =>
    match parseOperand w with
    | some o => .ok (some ⟨String.ofList m, some o⟩)
    | none => .error .badOperand
  | _ => .error .tooManyWords

/-- The instruction of one line of text (R67); `none` for a line without a
command, as in `parseLine` (log entry 9). -/
def assemble (text : List Char) : Except AsmError (Option Instr) :=
  match parseLine text with
  | .error e => .error e
  | .ok none => .ok none
  | .ok (some l) =>
    match assembleLine l with
    | .ok i => .ok (some i)
    | .error e => .error e

/-- A hexadecimal digit, upper case. -/
def hexDigit (n : Nat) : Char :=
  if n < 10 then Char.ofNat (48 + n) else Char.ofNat (55 + n)

/-- The last `k` hexadecimal digits of a number. -/
def hexDigits : Nat → Nat → List Char
  | 0, _ => []
  | k + 1, n => hexDigits k (n / 16) ++ [hexDigit (n % 16)]

/-- The listing form `OO:AAAAAAAAAAAAAAAA` of a command word (R58). -/
def listing (c : Command) : List Char :=
  hexDigits 2 c.op.toNat ++ [':'] ++ hexDigits 16 c.arg.toNat

end Sys2Proof.Machine
end

