-- ==== Sys2Proof/Safety.lean ====
section
/-! DEFINITION. The terms claims use: what a run answers, what makes it a good run, and the packed view of the block. -/

namespace Sys2Proof.Machine

/-- What the port shows after a transaction: `rsp_data`, `rsp_err` (30_encoding.md R57). -/
def State.response (s : State) : Word × Bool := (s.rspData, s.rspErr)

/-- The responses of up to `k` steps, in order; it ends where a step has no next state. -/
def responses : Nat → State → List (Word × Bool)
  | 0, _ => []
  | k + 1, s =>
    match step s with
    | .next s' => s'.response :: responses k s'
    | .fault _ => []
    | .refused _ => []

/-- The outcome is the state `s` with nothing changed but the response, which is `data` without an error: what a query
does (20_memory.md R44). -/
def Answers (o : Host.Outcome State Fault Refusal) (s : State) (data : Word) : Prop :=
  o = .next { s with rspData := data, rspErr := false }

/-- The outcome is a query's, and its response is the two's-complement pattern of exactly this integer (30_encoding.md R65). -/
def AnswersInt (o : Host.Outcome State Fault Refusal) (s : State) (x : Int) : Prop :=
  ∃ data : Word, Answers o s data ∧ data.toInt = x

/-- The outcome is the state `s` with the descriptor replaced and the response 0 without an error, and nothing else
changed: what a mutating command does (R44, R65). -/
def Loads (o : Host.Outcome State Fault Refusal) (s : State) (d : Descriptor) : Prop :=
  o = .next { s with d := d, rspData := 0, rspErr := false }

/-- The opcode is one of the 31 reserved ones, as 30_encoding.md R66 lists them. -/
def isReserved (op : Opcode) : Bool :=
  let n := op.toNat
  (0x02 ≤ n && n ≤ 0x0F) || (0x19 ≤ n && n ≤ 0x1F) || (0x29 ≤ n && n ≤ 0x2F) || n == 0x37 || n == 0x3E || n == 0x3F

/-- How many low bits of `arg` the command of an opcode uses (30_encoding.md R59); the others are ignored. -/
def operandBits (op : Opcode) : Nat :=
  match op.toNat with
  | 0x00 => 64
  | 0x20 => 20
  | 0x21 => 32
  | 0x22 => 5
  | 0x23 => 2
  | 0x24 => 1
  | 0x25 => 1
  | 0x26 => 1
  | 0x27 => 1
  | 0x28 => 1
  | 0x34 => 2
  | _ => 0

/-- The opcodes of the commands that write `D` (kind `W` of 30_encoding.md R60): `DEC`, `SET.*`, `CHGTYPE`, `CLRRSV`. -/
def writesD (op : Opcode) : Bool :=
  let n := op.toNat
  n == 0x00 || (0x20 ≤ n && n ≤ 0x28) || n == 0x34 || n == 0x35

/-- A mode conflict: both size flags set, whatever the class (00_scope.md R12). -/
def Descriptor.modeConflict (d : Descriptor) : Bool := d.use32 && d.use64

/-- The commands that can set a size flag: `DEC`, `SET.USE32`, `SET.USE64` (10_state.md R27, R28). -/
def setsSizeFlags (op : Opcode) : Bool := op == 0x00#6 || op == 0x26#6 || op == 0x27#6

/-- No mode conflict, and none of the commands that could make one is still to come. -/
def State.ConflictFree (s : State) : Prop :=
  s.d.modeConflict = false ∧ ∀ t ∈ s.port, setsSizeFlags t.cmd.op = false

/-- The commands that show `ring`: `ENC` and `GET.RING` (10_state.md R24). -/
def showsRing (op : Opcode) : Bool := op == 0x01#6 || op == 0x13#6

/-- Two states that differ in `ring` at most. -/
def sameButRing (s s' : State) : Prop :=
  s' = { s with d := { s.d with ring := s'.d.ring } }

/-- The same machine holding `D` as one packed word, as 10_state.md R36 allows. -/
structure PackedState where
  w : Word
  port : List Transaction
  rspData : Word
  rspErr : Bool
  draws : Nat
deriving DecidableEq, Repr

/-- The packed view of a state: `W = encode(D)` (R36). -/
def State.pack (s : State) : PackedState where
  w := s.d.encode
  port := s.port
  rspData := s.rspData
  rspErr := s.rspErr
  draws := s.draws

/-- The state a packed view stands for: each field is its slice of `W` (R36). -/
def PackedState.unpack (p : PackedState) : State where
  d := Descriptor.decode p.w
  port := p.port
  rspData := p.rspData
  rspErr := p.rspErr
  draws := p.draws

/-- The packed machine's step. -/
def packedStep (p : PackedState) : Host.Outcome PackedState Fault Refusal :=
  match step p.unpack with
  | .next s => .next s.pack
  | .fault r => .fault r
  | .refused r => .refused r

/-- The responses of up to `k` steps of the packed machine. -/
def packedResponses : Nat → PackedState → List (Word × Bool)
  | 0, _ => []
  | k + 1, p =>
    match packedStep p with
    | .next p' => (p'.rspData, p'.rspErr) :: packedResponses k p'
    | .fault _ => []
    | .refused _ => []

end Sys2Proof.Machine
end

