-- ==== Sys2Proof/Certificates/Slice0/Obligations.lean ====
section
/-! DEFINITION. The statements for the provers. -/

open Sys2Proof Sys2Proof.Machine

/-- O1. For every instruction i, with every one of the 2^64 values of its operand, decoding the 70-bit command word of i
gives i. (R58, R60; derived) -/
def Obligations.DecodeInvertsEncode : Prop :=
  ∀ i : Instr, decode (encode i) = .ok i

/-- O2. For every 70-bit command word w and instruction i, if w decodes to i then encoding i gives w: no two words stand
for one instruction and no bit of a word is dropped. (R58, R60; derived) -/
def Obligations.EncodeInvertsDecode : Prop :=
  ∀ (w : CommandWord) (i : Instr), decode w = .ok i → encode i = w

/-- O3. Six command words written out from the opcode map decode to DEC, GET.PGRAN, SET.TYPE, CLASSIFY, CHGTYPE and
BND.LMAX with the operand they hold, and the word of the reserved opcode 0x37 decodes to none. (R58, R60; derived) -/
def Obligations.WordsOfTheOpcodeMapDecode : Prop :=
  decode 0x0000CF9A000000FFFF#70 = .ok (.dec 0x00CF9A000000FFFF) ∧
  decode 0x180000000000000000#70 = .ok (.getPgran 0) ∧
  decode 0x22000000000000003A#70 = .ok (.setType 0x3A) ∧
  decode 0x30FFFFFFFFFFFFFFFF#70 = .ok (.classify 0xFFFFFFFFFFFFFFFF) ∧
  decode 0x340000000000000003#70 = .ok (.chgtype 3) ∧
  decode 0x3D0000000000000000#70 = .ok (.bndLmax 0) ∧
  decode 0x370000000000001234#70 = .error (.reservedOpcode 0x37)

/-- O4. For every command: it decodes to an instruction exactly when the check by groups takes its opcode, it is refused
by name exactly when its opcode is one of the 31 that R66 lists, and the operand plays no part. (R58, R60, R66;
derived) -/
def Obligations.CommandsAreDefinedOrReserved : Prop :=
  ∀ c : Command,
    ((∃ i, decodeCommand c = .ok i) ↔ c.wellFormed = true) ∧
    (decodeCommand c = .error (.reservedOpcode c.op) ↔ isReserved c.op = true) ∧
    (c.wellFormed = true ↔ isReserved c.op = false)

/-- O5. For every state and command presented next: if the opcode is one of the 31 reserved ones, the step gives that
state with rsp_data 0 and rsp_err 1 and nothing else changed; otherwise it gives a next state with rsp_err 0. (R66) -/
def Obligations.ReservedOpcodeAnswersAnError : Prop :=
  ∀ (s : State) (c : Command),
    (isReserved c.op = true → step (s.present c) = .next { s with rspData := 0, rspErr := true }) ∧
    (isReserved c.op = false → ∃ s', step (s.present c) = .next s' ∧ s'.rspErr = false)

/-- O6. Where the first transaction of the port has no rst and its command decodes to i, the step is exec of i on the
state whose port is the rest; and a command word that decodes to i, presented by withFetchWord, is run as exec of i
on the state itself. The second clause rests on the model's choices: that withFetchWord presents the word before all
else and without rst (log entry 1), and that it and decodeTableWord read the word as a number (log entry 8). (R11,
R57, R58; derived) -/
def Obligations.StepRunsTheDecodedInstruction : Prop :=
  (∀ (s : State) (c : Command) (rest : List Transaction) (i : Instr),
    s.port = { rst := false, cmd := c } :: rest → decodeCommand c = .ok i →
      step s = exec i { s with port := rest }) ∧
  (∀ (s : State) (w : CommandWord) (i : Instr),
    decode w = .ok i → step (s.withFetchWord 72 w.toNat) = exec i s ∧ decodeTableWord 72 w.toNat = some i)

/-- O7. For every state and two commands of one opcode whose operands agree in the low bits that R59's table says the
opcode uses, the step is the same: the same state, the same response, the same rsp_err. (R59,
93_implementation_defined.md U12; derived) -/
def Obligations.IgnoredOperandBitsChangeNothing : Prop :=
  ∀ (s : State) (op : Opcode) (a b : Word),
    a.toNat % 2 ^ operandBits op = b.toNat % 2 ^ operandBits op →
      step (s.present { op := op, arg := a }) = step (s.present { op := op, arg := b })

/-- O8. For every 64-bit word v, packing the fields unpacked from v gives v, with no exception for any bit. (R54) -/
def Obligations.PackedWordRoundTrip : Prop :=
  ∀ v : Word, (Descriptor.decode v).encode = v

/-- O9. For every descriptor d (every field of the type is in range), unpacking the packed word of d gives d, field by
field. (R55; derived) -/
def Obligations.FieldRoundTrip : Prop :=
  ∀ d : Descriptor, Descriptor.decode d.encode = d

/-- O10. For every state and operand, DEC completes: each field is the number at its bit positions, the response is 0
without an error, nothing else changes, and an ENC that follows answers the operand. (R52, R69) -/
def Obligations.DecLoadsEveryField : Prop :=
  ∀ (s : State) (arg b : Word), ∃ d : Descriptor,
    Loads (exec (.dec arg) s) s d ∧
    d.limit.toNat = arg.toNat / 2 ^ 48 % 2 ^ 4 * 2 ^ 16 + arg.toNat % 2 ^ 16 ∧
    d.base.toNat = arg.toNat / 2 ^ 56 * 2 ^ 24 + arg.toNat / 2 ^ 16 % 2 ^ 24 ∧
    d.type.toNat = arg.toNat / 2 ^ 40 % 2 ^ 5 ∧
    d.ring.toNat = arg.toNat / 2 ^ 45 % 2 ^ 2 ∧
    d.present.toNat = arg.toNat / 2 ^ 47 % 2 ∧
    d.avlBit.toNat = arg.toNat / 2 ^ 52 % 2 ∧
    d.use64.toNat = arg.toNat / 2 ^ 53 % 2 ∧
    d.use32.toNat = arg.toNat / 2 ^ 54 % 2 ∧
    d.pageGranularity.toNat = arg.toNat / 2 ^ 55 % 2 ∧
    ∀ s', exec (.dec arg) s = .next s' → Answers (exec (.enc b) s') s' arg

/-- O11. For every state and operand, ENC completes: D and everything but the response are unchanged, and the response
is the sum of the eleven pieces of the fields, each at its bit position. (R53, R70) -/
def Obligations.EncAnswersThePackedWord : Prop :=
  ∀ (s : State) (arg : Word), ∃ w : Word,
    Answers (exec (.enc arg) s) s w ∧
    w.toNat =
      s.d.limit.toNat % 2 ^ 16
      + s.d.base.toNat % 2 ^ 24 * 2 ^ 16
      + s.d.type.toNat * 2 ^ 40
      + s.d.ring.toNat * 2 ^ 45
      + s.d.present.toNat * 2 ^ 47
      + s.d.limit.toNat / 2 ^ 16 * 2 ^ 48
      + s.d.avlBit.toNat * 2 ^ 52
      + s.d.use64.toNat * 2 ^ 53
      + s.d.use32.toNat * 2 ^ 54
      + s.d.pageGranularity.toNat * 2 ^ 55
      + s.d.base.toNat / 2 ^ 24 * 2 ^ 56

/-- O12. For every state and operand, each of the nine SET commands completes: its field becomes the operand modulo two
to the field's width (a one-bit field: whether the operand is odd), every other field and the port are unchanged,
and the response is 0 without an error. (R71, R72, R73, R74, R75, R76, R77, R78, R79, R80) -/
def Obligations.SetWritesItsFieldAlone : Prop :=
  ∀ (s : State) (arg : Word),
    let odd := decide (arg.toNat % 2 = 1)
    Loads (exec (.setLimit arg) s) s { s.d with limit := BitVec.ofNat 20 (arg.toNat % 2 ^ 20) } ∧
    Loads (exec (.setBase arg) s) s { s.d with base := BitVec.ofNat 32 (arg.toNat % 2 ^ 32) } ∧
    Loads (exec (.setType arg) s) s { s.d with type := BitVec.ofNat 5 (arg.toNat % 2 ^ 5) } ∧
    Loads (exec (.setRing arg) s) s { s.d with ring := BitVec.ofNat 2 (arg.toNat % 2 ^ 2) } ∧
    Loads (exec (.setPresent arg) s) s { s.d with present := odd } ∧
    Loads (exec (.setAvl arg) s) s { s.d with avlBit := odd } ∧
    Loads (exec (.setUse32 arg) s) s { s.d with use32 := odd } ∧
    Loads (exec (.setUse64 arg) s) s { s.d with use64 := odd } ∧
    Loads (exec (.setPgran arg) s) s { s.d with pageGranularity := odd }

/-- O13. For every state and operand, each of the nine GET commands completes: D and the port are unchanged, and the
response is the field's number, zero-extended to 64 bits, without an error. (R81, R82, R83, R84, R85, R86, R87, R88,
R89) -/
def Obligations.GetAnswersItsField : Prop :=
  ∀ (s : State) (arg : Word),
    Answers (exec (.getLimit arg) s) s (BitVec.ofNat 64 s.d.limit.toNat) ∧
    Answers (exec (.getBase arg) s) s (BitVec.ofNat 64 s.d.base.toNat) ∧
    Answers (exec (.getType arg) s) s (BitVec.ofNat 64 s.d.type.toNat) ∧
    Answers (exec (.getRing arg) s) s (BitVec.ofNat 64 s.d.ring.toNat) ∧
    Answers (exec (.getPresent arg) s) s (if s.d.present then 1 else 0) ∧
    Answers (exec (.getAvl arg) s) s (if s.d.avlBit then 1 else 0) ∧
    Answers (exec (.getUse32 arg) s) s (if s.d.use32 then 1 else 0) ∧
    Answers (exec (.getUse64 arg) s) s (if s.d.use64 then 1 else 0) ∧
    Answers (exec (.getPgran arg) s) s (if s.d.pageGranularity then 1 else 0)

/-- O14. For every state and operand, CLASSIFY completes with D unchanged and the response 0 where present is 0, and
otherwise 1 for types 0 to 15, 3 for types 16 to 23 and 2 for types 24 to 31. (R61, R94) -/
def Obligations.ClassifyAnswersTheClassCode : Prop :=
  ∀ (s : State) (arg : Word),
    Answers (exec (.classify arg) s) s
      (if s.d.present = false then 0
       else if s.d.type.toNat < 16 then 1
       else if s.d.type.toNat < 24 then 3
       else 2)

/-- O15. For every 64-bit word v the class of decode(v) is notPresent where bit 47 is 0; otherwise system where bit 44
is 0; otherwise code where bit 43 is 1 and data where it is 0. (R90; derived) -/
def Obligations.ClassIsReadFromThreePackedBits : Prop :=
  ∀ v : Word,
    (Descriptor.decode v).classify =
      if v.toNat / 2 ^ 47 % 2 = 0 then .notPresent
      else if v.toNat / 2 ^ 44 % 2 = 0 then .system
      else if v.toNat / 2 ^ 43 % 2 = 1 then .code
      else .data

/-- O16. For every state and operand, the attributes are the variant of the class, and ATTRS completes with D unchanged
and the response 0 for notPresent, 1 + 16 * type for system, and tag + 16 * (type mod 8) for code (tag 2) and data
(tag 3). (R62, R91, R95) -/
def Obligations.AttrsAnswersTheAttributeWord : Prop :=
  ∀ (s : State) (arg : Word),
    let n := s.d.type.toNat
    (s.d.attributesOf =
      if s.d.present = false then .notPresent
      else if n < 16 then .system (BitVec.ofNat 4 n)
      else if n < 24 then .data (n.testBit 0) (n.testBit 1) (n.testBit 2)
      else .code (n.testBit 0) (n.testBit 1) (n.testBit 2)) ∧
    ∃ w : Word, Answers (exec (.attrs arg) s) s w ∧
      w.toNat =
        if s.d.present = false then 0
        else if n < 16 then 1 + 16 * n
        else if n < 24 then 3 + 16 * (n % 8)
        else 2 + 16 * (n % 8)

/-- O17. For every state and operand, ISXD completes with D unchanged and the response 1 where present is 1 and
type[4:2] is 0b101, and 0 otherwise; isExpandDown is true in exactly those states. (R92, R96) -/
def Obligations.IsxdAnswersForExpandDownData : Prop :=
  ∀ (s : State) (arg : Word),
    (s.d.isExpandDown = true ↔ s.d.present = true ∧ s.d.type.toNat / 4 = 5) ∧
    Answers (exec (.isxd arg) s) s (if s.d.present = true ∧ s.d.type.toNat / 4 = 5 then 1 else 0)

/-- O18. For every state and operand, CSIZE completes with D unchanged and the response of R93's table: 0 for notPresent
and system, for code with both flags and for data with use64; 64 for code with use64 alone; 32 with use32 alone; 16
with neither. The answer is 0 exactly when the size is null. (R63, R93, R97) -/
def Obligations.CsizeAnswersTheCodeSize : Prop :=
  ∀ (s : State) (arg : Word),
    let n := s.d.type.toNat
    let size : Word :=
      if s.d.present = false ∨ n < 16 then 0
      else if s.d.use64 then (if n < 24 ∨ s.d.use32 = true then 0 else 64)
      else if s.d.use32 then 32
      else 16
    Answers (exec (.csize arg) s) s size ∧ (s.d.codeSize = none ↔ size = 0)

/-- O19. For every descriptor: expand-down implies data; size 64 implies code with use64 and without use32; code has no
size exactly with both flags; the four functions are unchanged by any ring, avlBit, limit, base and pageGranularity;
the attribute word's low two bits are the class code and, for data, its bit 6 is expand-down. (R98; derived) -/
def Obligations.ClassificationLaws : Prop :=
  ∀ d : Descriptor,
    (d.isExpandDown = true → d.classify = .data) ∧
    (d.codeSize = some .size64 → d.classify = .code ∧ d.use64 = true ∧ d.use32 = false) ∧
    (d.classify = .code → (d.codeSize = none ↔ d.use32 = true ∧ d.use64 = true)) ∧
    (∀ ring avlBit limit base pageGranularity,
      let e : Descriptor := { d with
        ring := ring, avlBit := avlBit, limit := limit, base := base, pageGranularity := pageGranularity }
      e.classify = d.classify ∧ e.attributesOf = d.attributesOf ∧ e.isExpandDown = d.isExpandDown ∧
        e.codeSize = d.codeSize) ∧
    d.attributesOf.word.toNat % 4 = (code2 d.classify).toNat ∧
    (d.classify = .data → d.attributesOf.word.getLsbD 6 = d.isExpandDown)

/-- O20. For every state and operand, CHGTYPE completes with the response 0. The target is coded by the operand modulo
4. Where the class is the target, D is unchanged; otherwise to notPresent every field becomes 0, to system present
1, type 1, both flags 0, to code present 1, type 24, to data present 1, type 16, use64 0; the fields not listed keep
their value. The 0 written to present by target notPresent is this hardware's NP_SETS_PRESENT = false (log entry 5,
DEDUCED); no rule is cited for it. (R100, R103, R104, R105, R107; derived) -/
def Obligations.ChgtypeWritesTheCanonicalFields : Prop :=
  ∀ (s : State) (arg : Word),
    (arg.toNat % 4 = 0 → Loads (exec (.chgtype arg) s) s
      (if s.d.classify = .notPresent then s.d else
        { limit := 0, base := 0, type := 0, ring := 0, present := false, avlBit := false, use32 := false,
          use64 := false, pageGranularity := false })) ∧
    (arg.toNat % 4 = 1 → Loads (exec (.chgtype arg) s) s
      (if s.d.classify = .system then s.d else
        { s.d with present := true, type := 1, use32 := false, use64 := false })) ∧
    (arg.toNat % 4 = 2 → Loads (exec (.chgtype arg) s) s
      (if s.d.classify = .code then s.d else { s.d with present := true, type := 24 })) ∧
    (arg.toNat % 4 = 3 → Loads (exec (.chgtype arg) s) s
      (if s.d.classify = .data then s.d else { s.d with present := true, type := 16, use64 := false }))

/-- O21. For both values of NP_SETS_PRESENT and every state whose class is not notPresent, CHGTYPE with an operand
divisible by 4 completes: present becomes the parameter and every other field 0. With the parameter true the result
packs as 0x0000800000000000, classifies as system and has the note invalid. That this hardware's parameter is false,
so that its CHGTYPE is the one of that configuration, is log entry 5 (DEDUCED); R102 is cited for the other clauses.
(R102; derived) -/
def Obligations.ChgtypeToNotPresentInEitherBuild : Prop :=
  (∀ (c : Config) (s : State) (arg : Word),
    arg.toNat % 4 = 0 → s.d.classify ≠ .notPresent →
      Loads (chgtypeUnder c arg s) s
        { limit := 0, base := 0, type := 0, ring := 0, present := c.npSetsPresent, avlBit := false,
          use32 := false, use64 := false, pageGranularity := false }) ∧
  (∀ (s : State) (arg : Word),
    exec (.chgtype arg) s = chgtypeUnder Config.block arg s ∧ Config.block.npSetsPresent = false) ∧
  (toNotPresent { npSetsPresent := true }).encode = 0x0000800000000000 ∧
  (toNotPresent { npSetsPresent := true }).classify = .system ∧
  .invalid ∈ (toNotPresent { npSetsPresent := true }).configurationNotes

/-- O22. For every descriptor and target: with NP_SETS_PRESENT false the result classifies as the target; with it true
this fails exactly for target notPresent from a descriptor that is not notPresent. (R109; derived) -/
def Obligations.ChangeTypeReachesItsTarget : Prop :=
  ∀ (c : Config) (d : Descriptor) (t : SegmentType),
    (c.npSetsPresent = false → (d.changeType c t).classify = t) ∧
    (c.npSetsPresent = true →
      ((d.changeType c t).classify ≠ t ↔ t = .notPresent ∧ d.classify ≠ .notPresent))

/-- O23. For every configuration, descriptor and target, applying changeType to the result of changeType with the same
target gives the same descriptor. (R109; derived) -/
def Obligations.ChangeTypeTwiceIsOnce : Prop :=
  ∀ (c : Config) (d : Descriptor) (t : SegmentType),
    (d.changeType c t).changeType c t = d.changeType c t

/-- O24. For every descriptor of another class: changed to system it has neither the note invalid nor reserved; changed
to data it has neither, and its code size is 16 or 32; changed to code it has no size exactly if both flags were
set, and the note reserved exactly if use64 alone was set with a nonzero base or limit. (R109; derived) -/
def Obligations.ChangeTypeNeverLandsOnABadSystemOrDataSegment : Prop :=
  ∀ (c : Config) (d : Descriptor),
    (d.classify ≠ .system →
      .invalid ∉ (d.changeType c .system).configurationNotes ∧
      .reserved ∉ (d.changeType c .system).configurationNotes) ∧
    (d.classify ≠ .data →
      .invalid ∉ (d.changeType c .data).configurationNotes ∧
      .reserved ∉ (d.changeType c .data).configurationNotes ∧
      ((d.changeType c .data).codeSize = some .size16 ∨ (d.changeType c .data).codeSize = some .size32)) ∧
    (d.classify ≠ .code →
      ((d.changeType c .code).codeSize = none ↔ d.use32 = true ∧ d.use64 = true) ∧
      (.reserved ∈ (d.changeType c .code).configurationNotes ↔
        d.use64 = true ∧ d.use32 = false ∧ (d.base ≠ 0 ∨ d.limit ≠ 0)))

/-- O25. For every state and operand, CLRRSV completes with the response 0: notPresent unchanged; system both flags 0;
data use64 0; code with use64 alone base and limit 0; other code unchanged; no other field changes. (R106, R108) -/
def Obligations.ClrrsvClearsTheReservedFields : Prop :=
  ∀ (s : State) (arg : Word),
    Loads (exec (.clrrsv arg) s) s
      (if s.d.present = false then s.d
       else if s.d.type.toNat < 16 then { s.d with use64 := false, use32 := false }
       else if s.d.type.toNat < 24 then { s.d with use64 := false }
       else if s.d.use64 = true ∧ s.d.use32 = false then { s.d with base := 0, limit := 0 }
       else s.d)

/-- O26. For every descriptor: clearing keeps the class; clearing twice is clearing once; the notes afterwards do not
contain reserved; the code size is kept but for data, whose size becomes 16 or 32. (R109; derived) -/
def Obligations.ClearAllReservedLaws : Prop :=
  ∀ d : Descriptor,
    d.clearAllReserved.classify = d.classify ∧
    d.clearAllReserved.clearAllReserved = d.clearAllReserved ∧
    .reserved ∉ d.clearAllReserved.configurationNotes ∧
    (d.classify ≠ .data → d.clearAllReserved.codeSize = d.codeSize) ∧
    (d.classify = .data →
      d.clearAllReserved.codeSize = some .size16 ∨ d.clearAllReserved.codeSize = some .size32)

/-- O27. For every state and operand, NOTES completes with D unchanged and a response that is 1 for reserved plus 2 for
invalid plus 4 for a compat tag plus 8 for 386 or 16 for x86-64. (R64, R117) -/
def Obligations.NotesAnswersTheNotesWord : Prop :=
  ∀ (s : State) (arg : Word),
    let n := s.d.configurationNotes
    ∃ w : Word, Answers (exec (.notes arg) s) s w ∧
      w.toNat =
        (if Tag.reserved ∈ n then 1 else 0) + (if Tag.invalid ∈ n then 2 else 0)
        + (if Tag.compatX8664 ∈ n then 4 + 16
           else if Tag.compat386 ∈ n then 4 + 8
           else if Tag.compat286 ∈ n then 4
           else 0)

/-- O28. For every present descriptor of type 0 to 15: reserved is noted exactly if a size flag is set; invalid exactly
for the ten subtypes of the list, and then no compat tag; for subtypes 9 and 11 the compat tag is 386; for 1, 2, 3
and 5 it is 386 or 286 as a 386-only field is used or not. Where both reserved and invalid are noted, reserved comes
first. (R112, R113) -/
def Obligations.NotesOfASystemDescriptor : Prop :=
  ∀ d : Descriptor, d.present = true → d.type.toNat < 16 →
    let n := d.type.toNat
    let notes := d.configurationNotes
    (Tag.reserved ∈ notes ↔ d.use64 = true ∨ d.use32 = true) ∧
    (Tag.invalid ∈ notes ↔ n ∈ [0, 4, 6, 7, 8, 10, 12, 13, 14, 15]) ∧
    (Tag.invalid ∈ notes →
      Tag.compat286 ∉ notes ∧ Tag.compat386 ∉ notes ∧ Tag.compatX8664 ∉ notes) ∧
    (Tag.reserved ∈ notes → Tag.invalid ∈ notes → notes = [.reserved, .invalid]) ∧
    (n ∈ [9, 11] → Tag.compat386 ∈ notes) ∧
    (n ∈ [1, 2, 3, 5] → (Tag.compat386 ∈ notes ↔ d.uses386 = true) ∧ (Tag.compat286 ∈ notes ↔ d.uses386 = false))

/-- O29. For every descriptor the ordered list of notes is the one of R118's table, by present, the type's number, the
two flags, whether base and limit are 0, and whether any of the packed bits 63:48 is set. (R118; derived) -/
def Obligations.NotesInClosedForm : Prop :=
  ∀ d : Descriptor,
    let n := d.type.toNat
    let flags := d.use32 || d.use64
    let level := if d.encode.toNat / 2 ^ 48 ≠ 0 then Tag.compat386 else Tag.compat286
    d.configurationNotes =
      if d.present = false then [level]
      else if n < 16 then
        if n ∈ [0, 4, 6, 7, 8, 10, 12, 13, 14, 15] then (if flags then [.reserved, .invalid] else [.invalid])
        else if n ∈ [9, 11] then (if flags then [.reserved, .compat386] else [.compat386])
        else (if flags then [.reserved, .compat386] else [level])
      else if n < 24 then (if d.use64 then [.reserved] else [level])
      else if d.use32 && d.use64 then [.invalid]
      else if d.use64 then (if d.base = 0 ∧ d.limit = 0 then [.compatX8664] else [.reserved, .compatX8664])
      else if d.use32 then [.compat386]
      else [level]

/-- O30. For every state and operand the response of NOTES is 0x01, 0x02, 0x03, 0x04, 0x0C, 0x0D, 0x14 or 0x15; the list
of notes is never empty, has no repeats, and never holds invalid with a compat tag or reserved with the 286 tag.
(R116, R118; derived) -/
def Obligations.NotesWordIsOneOfEight : Prop :=
  ∀ (s : State) (arg : Word),
    let n := s.d.configurationNotes
    (∃ w ∈ ([0x01, 0x02, 0x03, 0x04, 0x0C, 0x0D, 0x14, 0x15] : List Word), Answers (exec (.notes arg) s) s w) ∧
    n ≠ [] ∧ n.Nodup ∧
    (Tag.invalid ∈ n → Tag.compat286 ∉ n ∧ Tag.compat386 ∉ n ∧ Tag.compatX8664 ∉ n) ∧
    (Tag.reserved ∈ n → Tag.compat286 ∉ n) ∧
    (Tag.compatX8664 ∈ n → s.d.classify = .code ∧ s.d.codeSize = some .size64)

/-- O31. For every state with present 1 and type[4:2] = 0b101 and every operand, the six BND commands complete with D
unchanged. With unit 4096 or 1 and top 0xFFFFFFFF or 0xFFFF: the least offset is (limit + 1) * unit, the greatest is
top, size is top - least + 1 (negative where that is negative), the least linear address is base, the greatest is
base + size - 1 clamped to 0 .. 0xFFFFFFFF, and overflow is whether it exceeded that. (R121, R123, R125) -/
def Obligations.BoundsOfAnExpandDownSegment : Prop :=
  ∀ (s : State) (arg : Word), s.d.present = true → s.d.type.toNat / 4 = 5 →
    let unit : Int := if s.d.pageGranularity then 4096 else 1
    let top : Int := if s.d.use32 then 0xFFFFFFFF else 0xFFFF
    let least : Int := (s.d.limit.toNat + 1) * unit
    let size : Int := top - least + 1
    let raw : Int := s.d.base.toNat + size - 1
    AnswersInt (exec (.bndImin arg) s) s least ∧
    AnswersInt (exec (.bndImax arg) s) s top ∧
    AnswersInt (exec (.bndSize arg) s) s size ∧
    AnswersInt (exec (.bndLmin arg) s) s s.d.base.toNat ∧
    AnswersInt (exec (.bndLmax arg) s) s (if raw < 0 then 0 else if raw > 0xFFFFFFFF then 0xFFFFFFFF else raw) ∧
    Answers (exec (.bndOvf arg) s) s (if raw > 0xFFFFFFFF then 1 else 0)

/-- O32. For every other state and every operand, the six BND commands complete with D unchanged: the least offset is 0,
the greatest is limit * unit plus 4095 with page granularity, size is the same number, the least linear address is
base, the greatest is base plus the greatest offset, at most 0xFFFFFFFF, and overflow is whether it exceeded that.
(R122, R124, R131) -/
def Obligations.BoundsOfEveryOtherDescriptor : Prop :=
  ∀ (s : State) (arg : Word), ¬ (s.d.present = true ∧ s.d.type.toNat / 4 = 5) →
    let unit : Int := if s.d.pageGranularity then 4096 else 1
    let greatest : Int := s.d.limit.toNat * unit + (if s.d.pageGranularity then 4095 else 0)
    let raw : Int := s.d.base.toNat + greatest
    AnswersInt (exec (.bndImin arg) s) s 0 ∧
    AnswersInt (exec (.bndImax arg) s) s greatest ∧
    AnswersInt (exec (.bndSize arg) s) s greatest ∧
    AnswersInt (exec (.bndLmin arg) s) s s.d.base.toNat ∧
    AnswersInt (exec (.bndLmax arg) s) s (if raw > 0xFFFFFFFF then 0xFFFFFFFF else raw) ∧
    Answers (exec (.bndOvf arg) s) s (if raw > 0xFFFFFFFF then 1 else 0)

/-- O33. For every descriptor: 0 <= internalMin <= 2^32, 0 <= internalMax < 2^32, 2^16 - 2^32 <= size < 2^32, 0 <=
linearMin < 2^32, 0 <= linearMax < 2^32. (R126; derived) -/
def Obligations.BoundsStayInTheirRanges : Prop :=
  ∀ d : Descriptor,
    let b := d.segmentBounds
    (0 ≤ b.internalMin ∧ b.internalMin ≤ 2 ^ 32) ∧
    (0 ≤ b.internalMax ∧ b.internalMax ≤ 0xFFFFFFFF) ∧
    (-0xFFFF0000 ≤ b.size ∧ b.size ≤ 0xFFFFFFFF) ∧
    (0 ≤ b.linearMin ∧ b.linearMin ≤ 0xFFFFFFFF) ∧
    (0 ≤ b.linearMax ∧ b.linearMax ≤ 0xFFFFFFFF)

/-- O34. For every descriptor: overflow implies the greatest linear address 0xFFFFFFFF; in the normal branch overflow is
base + internalMax >= 2^32; ring, avlBit and use64 affect no bound, use32 only those of expand-down segments, type
and present only through the branch; and the two worked examples give the numbers the document states. (R133;
derived) -/
def Obligations.BoundsLaws : Prop :=
  ∀ d : Descriptor,
    let b := d.segmentBounds
    (b.overflow = true → b.linearMax = 0xFFFFFFFF) ∧
    (d.isExpandDown = false → (b.overflow = true ↔ (d.base.toNat : Int) + b.internalMax ≥ 2 ^ 32)) ∧
    (∀ ring avlBit use64, ({ d with ring := ring, avlBit := avlBit, use64 := use64 } : Descriptor).segmentBounds = b) ∧
    (d.isExpandDown = false → ∀ use32, ({ d with use32 := use32 } : Descriptor).segmentBounds = b) ∧
    (∀ type present, ({ d with type := type, present := present } : Descriptor).isExpandDown = d.isExpandDown →
      ({ d with type := type, present := present } : Descriptor).segmentBounds = b) ∧
    (d.isExpandDown = false → d.pageGranularity = false → d.use32 = true → d.base = 0 → d.limit = 0xFFFFF →
      b.internalMax = 0xFFFFF ∧ b.linearMax = 0xFFFFF ∧ b.overflow = false) ∧
    (d.isExpandDown = true → d.limit = 0 → d.use32 = true → d.pageGranularity = false → d.base = 0 →
      b.internalMin = 1 ∧ b.internalMax = 0xFFFFFFFF ∧ b.size = 0xFFFFFFFF)

/-- O35. In the reset state all nine fields of D are 0, the packed word is 0, and the descriptor classifies as
notPresent. (R37) -/
def Obligations.ResetStateIsAllZero : Prop :=
  State.reset.d =
    { limit := 0, base := 0, type := 0, ring := 0, present := false, avlBit := false, use32 := false,
      use64 := false, pageGranularity := false } ∧
  State.reset.d.encode = 0x0000000000000000 ∧ State.reset.d.classify = .notPresent

/-- O36. For every state whose next transaction has rst asserted, with any command beside it, the step gives a next
state in which D is the reset state's and the port holds the remaining transactions. Nothing is said of the
response, which the spec leaves undefined (log entry 3). (R161) -/
def Obligations.ResetWinsOverACommand : Prop :=
  ∀ (s : State) (c : Command) (rest : List Transaction),
    s.port = { rst := true, cmd := c } :: rest →
      ∃ s', step s = .next s' ∧ s'.d = State.reset.d ∧ s'.port = rest

/-- O37. For every state with the all-zero descriptor and every operand: ENC, CLASSIFY, ATTRS, ISXD, CSIZE, all nine GET
and all six BND answer 0, and NOTES answers 0x04. (R160; derived) -/
def Obligations.QueriesInTheResetState : Prop :=
  ∀ (s : State) (a : Word), s.d = State.reset.d →
    (∀ i ∈ [Instr.enc a, .getLimit a, .getBase a, .getType a, .getRing a, .getPresent a, .getAvl a, .getUse32 a,
        .getUse64 a, .getPgran a, .classify a, .attrs a, .isxd a, .csize a, .bndOvf a, .bndSize a, .bndImin a,
        .bndImax a, .bndLmin a, .bndLmax a],
      Answers (exec i s) s 0) ∧
    Answers (exec (.notes a) s) s 0x04

/-- O38. From every state, DEC of 0x00CF9A000000FFFF loads limit 0xFFFFF, base 0, type 0b11010, ring 0, present 1,
avlBit 0, use32 1, use64 0, pageGranularity 1; CLASSIFY then answers 2, ATTRS 0x22, CSIZE 32 and NOTES 0x0C. (R163;
derived) -/
def Obligations.StartupFixture : Prop :=
  ∀ (s : State) (a : Word), ∃ s',
    exec (.dec 0x00CF9A000000FFFF) s = .next s' ∧
    s'.d = { limit := 0xFFFFF, base := 0, type := 0b11010, ring := 0, present := true, avlBit := false,
             use32 := true, use64 := false, pageGranularity := true } ∧
    Answers (exec (.classify a) s') s' 2 ∧ Answers (exec (.attrs a) s') s' 0x22 ∧
    Answers (exec (.csize a) s') s' 32 ∧ Answers (exec (.notes a) s') s' 0x0C

/-- O39. For every step: limit changes only by rst, DEC, SET.LIMIT, CHGTYPE to notPresent, or CLRRSV on 64-bit code; and
so on for each of the nine fields with the writers that R21 to R29 list for it. (R21, R22, R23, R24, R25, R26, R27,
R28, R29; derived) -/
def Obligations.EachFieldHasItsListedWriters : Prop :=
  ∀ s s' : State, step s = .next s' → ∃ (t : Transaction) (rest : List Transaction), s.port = t :: rest ∧
    let op := t.cmd.op.toNat
    let target := t.cmd.arg.toNat % 4
    let event := t.rst = true ∨ op = 0x00
    let zeroed := op = 0x34 ∧ target = 0
    let wide := op = 0x35 ∧ s.d.classify = .code ∧ s.d.codeSize = some .size64
    (s'.d.limit ≠ s.d.limit → event ∨ op = 0x20 ∨ zeroed ∨ wide) ∧
    (s'.d.base ≠ s.d.base → event ∨ op = 0x21 ∨ zeroed ∨ wide) ∧
    (s'.d.type ≠ s.d.type → event ∨ op = 0x22 ∨ op = 0x34) ∧
    (s'.d.ring ≠ s.d.ring → event ∨ op = 0x23 ∨ zeroed) ∧
    (s'.d.present ≠ s.d.present → event ∨ op = 0x24 ∨ op = 0x34) ∧
    (s'.d.avlBit ≠ s.d.avlBit → event ∨ op = 0x25 ∨ zeroed) ∧
    (s'.d.use32 ≠ s.d.use32 →
      event ∨ op = 0x26 ∨ (op = 0x34 ∧ target ≤ 1) ∨ (op = 0x35 ∧ s.d.classify = .system)) ∧
    (s'.d.use64 ≠ s.d.use64 →
      event ∨ op = 0x27 ∨ (op = 0x34 ∧ target ≠ 2) ∨
        (op = 0x35 ∧ (s.d.classify = .system ∨ s.d.classify = .data))) ∧
    (s'.d.pageGranularity ≠ s.d.pageGranularity → event ∨ op = 0x28 ∨ zeroed)

/-- O40. Where the next two transactions are the same command without rst and its opcode is none that writes D, both
steps have next states, D is unchanged after each, and both responses are equal. (R44, R60; derived) -/
def Obligations.QueriesLeaveDAndRepeat : Prop :=
  ∀ (s : State) (t : Transaction) (rest : List Transaction),
    s.port = t :: t :: rest → t.rst = false → writesD t.cmd.op = false →
      ∃ s₁ s₂, step s = .next s₁ ∧ step s₁ = .next s₂ ∧ s₁.d = s.d ∧ s₂.d = s.d ∧ s₂.response = s₁.response

/-- O41. Two states with the same D whose next transaction is the same command without rst step to states with the same
D and the same response, whatever else they hold; where that command is DEC, they do so whatever D they hold. (R11,
R46; derived) -/
def Obligations.StepDependsOnDAndTheCommandAlone : Prop :=
  ∀ (s₁ s₂ : State) (c : Command) (rest₁ rest₂ : List Transaction),
    s₁.port = { rst := false, cmd := c } :: rest₁ → s₂.port = { rst := false, cmd := c } :: rest₂ →
    s₁.d = s₂.d ∨ c.op = 0x00#6 →
      ∃ u₁ u₂, step s₁ = .next u₁ ∧ step s₂ = .next u₂ ∧ u₁.d = u₂.d ∧ u₁.response = u₂.response

/-- O42. For every state in which a transaction stands at the port, the step has a next state: it never faults and never
refuses, it takes exactly that transaction, and draws, the model's own counter of free values, advances by one
exactly where rst is asserted (the model's choice, log entry 3). Where none stands there the step refuses by name
(the model's choice, log entry 4). No rule is cited for these two clauses. (R140, R143, R146; derived) -/
def Obligations.EveryTransactionIsAnswered : Prop :=
  ∀ s : State,
    (∀ (t : Transaction) (rest : List Transaction), s.port = t :: rest →
      ∃ s', step s = .next s' ∧ s'.port = rest ∧ s'.draws = s.draws + t.rst.toNat) ∧
    (s.port = [] → step s = .refused .noTransaction)

/-- O43. From every state, as many steps as transactions stand at the port lead to a state with an empty port: no
transaction blocks, faults or is refused, whatever the descriptor holds on the way. (R140, R164, R167; derived) -/
def Obligations.EveryRunCompletes : Prop :=
  ∀ s : State, ∃ s', Sys2Proof.core.run s.port.length s = .next s' ∧ s'.port = []

/-- O44. Two states that differ in ring at most, and at whose port neither ENC nor GET.RING stands (but beside rst),
answer every run of any length with the same responses; where rst is asserted both take the same free value, which
is the model's choice (log entry 3). (R24, R148; derived) -/
def Obligations.RingIsReadByEncAndGetRingAlone : Prop :=
  ∀ (k : Nat) (s s' : State), sameButRing s s' →
    (∀ t ∈ s.port, t.rst = true ∨ showsRing t.cmd.op = false) →
      responses k s = responses k s'

/-- O45. For every state and every number of steps, the machine that holds the packed word in place of the nine fields
gives the same responses as the machine itself; where rst is asserted both take the same free value, which is the
model's choice (log entry 3). (R36; derived) -/
def Obligations.PackedViewIsIndistinguishable : Prop :=
  ∀ (k : Nat) (s : State), packedResponses k s.pack = responses k s

/-- O46. If use32 and use64 are not both set and none of DEC, SET.USE32 and SET.USE64 stands at the port, then every
step that has a next state keeps both facts. (R27, R28; derived) -/
def Obligations.NoModeConflictArisesUnasked : Prop :=
  ∀ s s' : State, s.ConflictFree → step s = .next s' → s'.ConflictFree

/-- O47. In the reset state use32 and use64 are not both set, and none of DEC, SET.USE32 and SET.USE64 stands at the
port (that nothing stands there is the model's choice, log entry 1). (R37; derived) -/
def Obligations.ResetStateHasNoModeConflict : Prop :=
  State.reset.ConflictFree

/-- O48. For every 64-bit word v with fields d = decode(v), the bytes a host lays out are, from the lowest address:
limit[7:0], limit[15:8], base[7:0], base[15:8], base[23:16], (present, ring, type), (pageGranularity, use32, use64,
avlBit, limit[19:16]), base[31:24]; and reading them back gives v. The byte order is log entry 10 (PRESUMED: the
spec decides it from general knowledge, 20_memory.md); no rule is cited for it, and R50 says which bits each field
has. (R50, 20_memory.md; derived) -/
def Obligations.SerialisedBytesAreLittleEndian : Prop :=
  ∀ v : Word,
    let d := Descriptor.decode v
    bytesWord (wordBytes v) = v ∧
    (wordBytes v).map (·.toNat) =
      [d.limit.toNat % 2 ^ 8, d.limit.toNat / 2 ^ 8 % 2 ^ 8, d.base.toNat % 2 ^ 8, d.base.toNat / 2 ^ 8 % 2 ^ 8,
       d.base.toNat / 2 ^ 16 % 2 ^ 8, d.present.toNat * 2 ^ 7 + d.ring.toNat * 2 ^ 5 + d.type.toNat,
       d.pageGranularity.toNat * 2 ^ 7 + d.use32.toNat * 2 ^ 6 + d.use64.toNat * 2 ^ 5 + d.avlBit.toNat * 2 ^ 4
         + d.limit.toNat / 2 ^ 16,
       d.base.toNat / 2 ^ 24]

/-- O49. For every assembly line, the assembler gives an instruction exactly when the mnemonic is known, an operand
stands exactly where the command takes one, a literal is at most 2^64 - 1, and a type's name is given only to
CHGTYPE. That an unknown mnemonic, a missing and an unexpected operand and a type's name elsewhere are rejected is
the model's choice (log entry 9); R67 states the rejection of a literal above 2^64 - 1 alone. (R59, R67, R68;
derived) -/
def Obligations.AssemblerTakesExactlyTheWellFormedLines : Prop :=
  ∀ l : AsmLine, (∃ i, assembleLine l = .ok i) ↔ l.wellFormed = true

/-- O50. CHG.NP, CHG.SYS, CHG.CODE and CHG.DATA assemble to CHGTYPE 0, 1, 2 and 3, CLEAR to DEC 0, and LOADDEF to DEC
0x00CF9A000000FFFF. (R68) -/
def Obligations.PseudoInstructionsExpand : Prop :=
  assembleLine ⟨"CHG.NP", none⟩ = .ok (.chgtype 0) ∧
  assembleLine ⟨"CHG.SYS", none⟩ = .ok (.chgtype 1) ∧
  assembleLine ⟨"CHG.CODE", none⟩ = .ok (.chgtype 2) ∧
  assembleLine ⟨"CHG.DATA", none⟩ = .ok (.chgtype 3) ∧
  assembleLine ⟨"CLEAR", none⟩ = .ok (.dec 0) ∧
  assembleLine ⟨"LOADDEF", none⟩ = .ok (.dec 0x00CF9A000000FFFF)
end

