-- ==== Sys2Proof/Laws/Codec.lean ====
section
/-! SUPPORT. The bits of a piece of the packed word, and operands that agree in their low bits. -/

namespace Sys2Proof.Machine

/-- A bit of a piece: inside the piece's place it is the field's bit, outside it is 0 (30_encoding.md R53). -/
theorem piece_getLsbD (n : Nat) {m : Nat} (v : BitVec m) (k i : Nat) :
    (piece n v k).getLsbD i =
      (decide (i < 64) && decide (k ≤ i) && decide (i - k < n) && v.getLsbD (i - k)) := by
  simp only [piece, BitVec.getLsbD_shiftLeft, BitVec.getLsbD_setWidth]
  by_cases h : i < 64 <;> by_cases h2 : i < k <;> simp [h, h2]
  rw [decide_eq_true (show i - k < 64 by omega), decide_eq_true (show k ≤ i by omega)]
  simp

/-- Operands that agree in their low `n` bits give the same `n`-bit operand (30_encoding.md R59). -/
theorem argLow_congr {n : Nat} {a b : Word} (h : a.toNat % 2 ^ n = b.toNat % 2 ^ n) :
    argLow n a = argLow n b := by
  apply BitVec.eq_of_toNat_eq
  simpa [argLow] using h

/-- Operands that agree in their lowest bit give the same one-bit operand (R59). -/
theorem argBit_congr {a b : Word} (h : a.toNat % 2 = b.toNat % 2) : argBit a = argBit b := by
  simp [argBit, BitVec.getLsbD, Nat.testBit_zero, h]

end Sys2Proof.Machine
end

