-- ==== Sys2Proof/Laws/Decode.lean ====
section
/-! SUPPORT. The command word as a pair, and looking a key up in a list of rows. -/

namespace Sys2Proof

/-- A command is read back from its command word (30_encoding.md R58). -/
@[simp] theorem Command.ofWord_toWord (c : Command) : Command.ofWord c.toWord = c := by
  cases c with
  | mk op arg =>
    simp only [Command.ofWord, Command.toWord, Command.mk.injEq]
    exact ⟨BitVec.extractLsb'_append_eq_left, BitVec.extractLsb'_append_eq_right⟩

/-- A command word is put together again from its command (R58). -/
@[simp] theorem Command.toWord_ofWord (w : CommandWord) : (Command.ofWord w).toWord = w := by
  simp only [Command.ofWord, Command.toWord]
  apply BitVec.eq_of_getLsbD_eq
  intro i hi
  rw [BitVec.getLsbD_append, BitVec.getLsbD_extractLsb', BitVec.getLsbD_extractLsb']
  by_cases h : i < 64
  · simp [h]
  · rw [show 64 + (i - 64) = i by omega, decide_eq_true (show i - 64 < 6 by omega)]
    simp [h]

/-- What a lookup finds stands in the list. -/
theorem mem_of_lookup {α β : Type} [BEq α] [LawfulBEq α] {l : List (α × β)} {k : α} {v : β}
    (h : l.lookup k = some v) : (k, v) ∈ l := by
  induction l with
  | nil => simp at h
  | cons p l ih =>
    obtain ⟨x, y⟩ := p
    simp only [List.lookup] at h
    split at h
    · next he => simp only [beq_iff_eq] at he; simp_all
    · exact List.mem_cons_of_mem _ (ih h)

/-- A lookup finds something exactly for the keys of the list. -/
theorem lookup_isSome_iff {α β : Type} [BEq α] [LawfulBEq α] (l : List (α × β)) (k : α) :
    (l.lookup k).isSome = true ↔ k ∈ l.map Prod.fst := by
  induction l with
  | nil => simp
  | cons p l ih =>
    obtain ⟨x, y⟩ := p
    by_cases h : k = x
    · simp [h]
    · have h' : (k == x) = false := by simpa using h
      simp [List.lookup_cons, h, h', ih]

end Sys2Proof
end

