-- ==== Sys2Proof/Laws/State.lean ====
section
/-! SUPPORT. What each named update leaves in each field, one lemma per field and update, all by `rfl`. -/

namespace Sys2Proof.Machine

@[simp] theorem State.respond_d (s : State) (data : Word) : (s.respond data).d = s.d := rfl
@[simp] theorem State.respond_port (s : State) (data : Word) : (s.respond data).port = s.port := rfl
@[simp] theorem State.respond_rspData (s : State) (data : Word) : (s.respond data).rspData = data := rfl
@[simp] theorem State.respond_rspErr (s : State) (data : Word) : (s.respond data).rspErr = false := rfl
@[simp] theorem State.respond_draws (s : State) (data : Word) : (s.respond data).draws = s.draws := rfl

@[simp] theorem State.respondError_d (s : State) : (s.respondError).d = s.d := rfl
@[simp] theorem State.respondError_port (s : State) : (s.respondError).port = s.port := rfl
@[simp] theorem State.respondError_rspData (s : State) : (s.respondError).rspData = 0 := rfl
@[simp] theorem State.respondError_rspErr (s : State) : (s.respondError).rspErr = true := rfl
@[simp] theorem State.respondError_draws (s : State) : (s.respondError).draws = s.draws := rfl

@[simp] theorem State.applyReset_d (s : State) : (s.applyReset).d = Descriptor.zero := rfl
@[simp] theorem State.applyReset_port (s : State) : (s.applyReset).port = s.port := rfl
@[simp] theorem State.applyReset_rspData (s : State) : (s.applyReset).rspData = Config.freeRspData s.draws := rfl
@[simp] theorem State.applyReset_rspErr (s : State) : (s.applyReset).rspErr = Config.freeRspErr s.draws := rfl
@[simp] theorem State.applyReset_draws (s : State) : (s.applyReset).draws = s.draws + 1 := rfl

@[simp] theorem State.present_d (s : State) (c : Command) : (s.present c).d = s.d := rfl
@[simp] theorem State.present_port (s : State) (c : Command) : (s.present c).port = { rst := false, cmd := c } :: s.port := rfl
@[simp] theorem State.present_rspData (s : State) (c : Command) : (s.present c).rspData = s.rspData := rfl
@[simp] theorem State.present_rspErr (s : State) (c : Command) : (s.present c).rspErr = s.rspErr := rfl
@[simp] theorem State.present_draws (s : State) (c : Command) : (s.present c).draws = s.draws := rfl

@[simp] theorem Descriptor.toSystem_limit (d : Descriptor) : d.toSystem.limit = d.limit := rfl
@[simp] theorem Descriptor.toSystem_base (d : Descriptor) : d.toSystem.base = d.base := rfl
@[simp] theorem Descriptor.toSystem_type (d : Descriptor) : d.toSystem.type = 0b00001#5 := rfl
@[simp] theorem Descriptor.toSystem_ring (d : Descriptor) : d.toSystem.ring = d.ring := rfl
@[simp] theorem Descriptor.toSystem_present (d : Descriptor) : d.toSystem.present = true := rfl
@[simp] theorem Descriptor.toSystem_avlBit (d : Descriptor) : d.toSystem.avlBit = d.avlBit := rfl
@[simp] theorem Descriptor.toSystem_use32 (d : Descriptor) : d.toSystem.use32 = false := rfl
@[simp] theorem Descriptor.toSystem_use64 (d : Descriptor) : d.toSystem.use64 = false := rfl
@[simp] theorem Descriptor.toSystem_pageGranularity (d : Descriptor) : d.toSystem.pageGranularity = d.pageGranularity := rfl

@[simp] theorem Descriptor.toCode_limit (d : Descriptor) : d.toCode.limit = d.limit := rfl
@[simp] theorem Descriptor.toCode_base (d : Descriptor) : d.toCode.base = d.base := rfl
@[simp] theorem Descriptor.toCode_type (d : Descriptor) : d.toCode.type = 0b11000#5 := rfl
@[simp] theorem Descriptor.toCode_ring (d : Descriptor) : d.toCode.ring = d.ring := rfl
@[simp] theorem Descriptor.toCode_present (d : Descriptor) : d.toCode.present = true := rfl
@[simp] theorem Descriptor.toCode_avlBit (d : Descriptor) : d.toCode.avlBit = d.avlBit := rfl
@[simp] theorem Descriptor.toCode_use32 (d : Descriptor) : d.toCode.use32 = d.use32 := rfl
@[simp] theorem Descriptor.toCode_use64 (d : Descriptor) : d.toCode.use64 = d.use64 := rfl
@[simp] theorem Descriptor.toCode_pageGranularity (d : Descriptor) : d.toCode.pageGranularity = d.pageGranularity := rfl

@[simp] theorem Descriptor.toData_limit (d : Descriptor) : d.toData.limit = d.limit := rfl
@[simp] theorem Descriptor.toData_base (d : Descriptor) : d.toData.base = d.base := rfl
@[simp] theorem Descriptor.toData_type (d : Descriptor) : d.toData.type = 0b10000#5 := rfl
@[simp] theorem Descriptor.toData_ring (d : Descriptor) : d.toData.ring = d.ring := rfl
@[simp] theorem Descriptor.toData_present (d : Descriptor) : d.toData.present = true := rfl
@[simp] theorem Descriptor.toData_avlBit (d : Descriptor) : d.toData.avlBit = d.avlBit := rfl
@[simp] theorem Descriptor.toData_use32 (d : Descriptor) : d.toData.use32 = d.use32 := rfl
@[simp] theorem Descriptor.toData_use64 (d : Descriptor) : d.toData.use64 = false := rfl
@[simp] theorem Descriptor.toData_pageGranularity (d : Descriptor) : d.toData.pageGranularity = d.pageGranularity := rfl

@[simp] theorem toNotPresent_limit (c : Config) : (toNotPresent c).limit = 0 := rfl
@[simp] theorem toNotPresent_base (c : Config) : (toNotPresent c).base = 0 := rfl
@[simp] theorem toNotPresent_type (c : Config) : (toNotPresent c).type = 0 := rfl
@[simp] theorem toNotPresent_ring (c : Config) : (toNotPresent c).ring = 0 := rfl
@[simp] theorem toNotPresent_present (c : Config) : (toNotPresent c).present = c.npSetsPresent := rfl
@[simp] theorem toNotPresent_avlBit (c : Config) : (toNotPresent c).avlBit = false := rfl
@[simp] theorem toNotPresent_use32 (c : Config) : (toNotPresent c).use32 = false := rfl
@[simp] theorem toNotPresent_use64 (c : Config) : (toNotPresent c).use64 = false := rfl
@[simp] theorem toNotPresent_pageGranularity (c : Config) : (toNotPresent c).pageGranularity = false := rfl

end Sys2Proof.Machine
end

