-- ==== Sys2Proof/Laws/Ops.lean ====
section
/-! SUPPORT. What the shared operations can do, said once. -/

namespace Sys2Proof.Machine

/-- A query goes on, and changes the response only. -/
theorem query_next_iff {f : Descriptor → Word} {s s' : State} :
    query f s = .next s' ↔ s' = s.respond (f s.d) := by
  simp [query, eq_comm]

/-- A mutating command goes on, and changes `D` and the response only. -/
theorem mutate_next_iff {f : Descriptor → Descriptor} {s s' : State} :
    mutate f s = .next s' ↔ s' = { s with d := f s.d }.respond 0 := by
  simp [mutate, eq_comm]

/-- A field register holds what was written to it, cut to its width (R71). -/
theorem Descriptor.get_set_same (d : Descriptor) (f : Field) (arg : Word) :
    (d.set f arg).get f =
      match f with
      | .limit => (arg.setWidth 20).setWidth 64
      | .base => (arg.setWidth 32).setWidth 64
      | .type => (arg.setWidth 5).setWidth 64
      | .ring => (arg.setWidth 2).setWidth 64
      | _ => boolWord (arg.getLsbD 0) := by
  cases f <;> rfl

/-- Writing a field register leaves every other one (R71). -/
theorem Descriptor.get_set_other (d : Descriptor) {f g : Field} (h : g ≠ f) (arg : Word) :
    (d.set f arg).get g = d.get g := by
  cases f <;> cases g <;> first | rfl | exact absurd rfl h

/-- The nine field registers are all there is to a descriptor. -/
theorem Descriptor.ext_fields {d e : Descriptor} (limit : d.limit = e.limit) (base : d.base = e.base)
    (type : d.type = e.type) (ring : d.ring = e.ring) (present : d.present = e.present)
    (avlBit : d.avlBit = e.avlBit) (use32 : d.use32 = e.use32) (use64 : d.use64 = e.use64)
    (pageGranularity : d.pageGranularity = e.pageGranularity) : d = e := by
  cases d; cases e; simp_all

/-- The class in terms of the three bits it is read from (R90). -/
theorem Descriptor.classify_cases (d : Descriptor) :
    (d.present = false ∧ d.classify = .notPresent) ∨
    (d.present = true ∧ d.type.getLsbD 4 = false ∧ d.classify = .system) ∨
    (d.present = true ∧ d.type.getLsbD 4 = true ∧ d.type.getLsbD 3 = true ∧ d.classify = .code) ∨
    (d.present = true ∧ d.type.getLsbD 4 = true ∧ d.type.getLsbD 3 = false ∧ d.classify = .data) := by
  unfold Descriptor.classify
  cases d.present <;> cases d.type.getLsbD 4 <;> cases d.type.getLsbD 3 <;> simp

/-- The two-bit codes of the types are read back (R61). -/
@[simp] theorem type2_code2 (t : SegmentType) : type2 (code2 t) = t := by
  cases t <;> rfl

/-- Every two-bit code is the code of a type (R61). -/
@[simp] theorem code2_type2 (c : BitVec 2) : code2 (type2 c) = c := by
  revert c; decide

end Sys2Proof.Machine
end

