-- ==== Sys2Proof/Laws/PerInstr.lean ====
section
/-! SUPPORT. Statements made for each instruction as syntax. -/

namespace Sys2Proof.Laws.OwnOpcode

/-- The opcode map holds the instruction's own row: under its opcode the map has a constructor, and that constructor
rebuilds the instruction from its operand (30_encoding.md R60). -/
def Statement (i : Instr) : Prop :=
  ∃ row, opcodeRows.lookup i.opcode = some row ∧ row i.arg = i

theorem dec (arg : Word) : Statement (.dec arg) := ⟨_, rfl, rfl⟩
theorem enc (arg : Word) : Statement (.enc arg) := ⟨_, rfl, rfl⟩
theorem getLimit (arg : Word) : Statement (.getLimit arg) := ⟨_, rfl, rfl⟩
theorem getBase (arg : Word) : Statement (.getBase arg) := ⟨_, rfl, rfl⟩
theorem getType (arg : Word) : Statement (.getType arg) := ⟨_, rfl, rfl⟩
theorem getRing (arg : Word) : Statement (.getRing arg) := ⟨_, rfl, rfl⟩
theorem getPresent (arg : Word) : Statement (.getPresent arg) := ⟨_, rfl, rfl⟩
theorem getAvl (arg : Word) : Statement (.getAvl arg) := ⟨_, rfl, rfl⟩
theorem getUse32 (arg : Word) : Statement (.getUse32 arg) := ⟨_, rfl, rfl⟩
theorem getUse64 (arg : Word) : Statement (.getUse64 arg) := ⟨_, rfl, rfl⟩
theorem getPgran (arg : Word) : Statement (.getPgran arg) := ⟨_, rfl, rfl⟩
theorem setLimit (arg : Word) : Statement (.setLimit arg) := ⟨_, rfl, rfl⟩
theorem setBase (arg : Word) : Statement (.setBase arg) := ⟨_, rfl, rfl⟩
theorem setType (arg : Word) : Statement (.setType arg) := ⟨_, rfl, rfl⟩
theorem setRing (arg : Word) : Statement (.setRing arg) := ⟨_, rfl, rfl⟩
theorem setPresent (arg : Word) : Statement (.setPresent arg) := ⟨_, rfl, rfl⟩
theorem setAvl (arg : Word) : Statement (.setAvl arg) := ⟨_, rfl, rfl⟩
theorem setUse32 (arg : Word) : Statement (.setUse32 arg) := ⟨_, rfl, rfl⟩
theorem setUse64 (arg : Word) : Statement (.setUse64 arg) := ⟨_, rfl, rfl⟩
theorem setPgran (arg : Word) : Statement (.setPgran arg) := ⟨_, rfl, rfl⟩
theorem classify (arg : Word) : Statement (.classify arg) := ⟨_, rfl, rfl⟩
theorem attrs (arg : Word) : Statement (.attrs arg) := ⟨_, rfl, rfl⟩
theorem isxd (arg : Word) : Statement (.isxd arg) := ⟨_, rfl, rfl⟩
theorem csize (arg : Word) : Statement (.csize arg) := ⟨_, rfl, rfl⟩
theorem chgtype (arg : Word) : Statement (.chgtype arg) := ⟨_, rfl, rfl⟩
theorem clrrsv (arg : Word) : Statement (.clrrsv arg) := ⟨_, rfl, rfl⟩
theorem notes (arg : Word) : Statement (.notes arg) := ⟨_, rfl, rfl⟩
theorem bndOvf (arg : Word) : Statement (.bndOvf arg) := ⟨_, rfl, rfl⟩
theorem bndSize (arg : Word) : Statement (.bndSize arg) := ⟨_, rfl, rfl⟩
theorem bndImin (arg : Word) : Statement (.bndImin arg) := ⟨_, rfl, rfl⟩
theorem bndImax (arg : Word) : Statement (.bndImax arg) := ⟨_, rfl, rfl⟩
theorem bndLmin (arg : Word) : Statement (.bndLmin arg) := ⟨_, rfl, rfl⟩
theorem bndLmax (arg : Word) : Statement (.bndLmax arg) := ⟨_, rfl, rfl⟩

end Sys2Proof.Laws.OwnOpcode
end

