-- ==== Sys2Proof/Laws/Step.lean ====
section
/-! SUPPORT. What an instruction, a transaction and a step can do, said once. -/

namespace Sys2Proof.Machine

/-- What every instruction does, in one form: `D` becomes `d`, the response becomes `data` without an error, and nothing
else changes. -/
def Completes (o : Host.Outcome State Fault Refusal) (s : State) (d : Descriptor) (data : Word) : Prop :=
  o = .next { s with d := d, rspData := data, rspErr := false }

/-- Every instruction completes, in every state (60_exceptions.md R140). -/
theorem exec_completes (i : Instr) (s : State) : ∃ d data, Completes (exec i s) s d data := by
  cases i <;> exact ⟨_, _, rfl⟩

/-- The outcome of a command: an instruction's, or the error response of a reserved opcode (R66). -/
theorem runCommand_cases (c : Command) (s : State) :
    (∃ i, decodeCommand c = .ok i ∧ runCommand c s = exec i s) ∨
    (∃ e, decodeCommand c = .error e ∧ runCommand c s = .next s.respondError) := by
  unfold runCommand
  cases decodeCommand c with
  | ok i => exact .inl ⟨i, rfl, rfl⟩
  | error e => exact .inr ⟨e, rfl, rfl⟩

/-- A step takes the first transaction of the port. -/
theorem step_cons {s : State} {t : Transaction} {rest : List Transaction} (h : s.port = t :: rest) :
    step s = transact t { s with port := rest } := by
  simp [step, State.takeTransaction, h]

/-- Without a transaction there is no step. -/
theorem step_nil {s : State} (h : s.port = []) : step s = .refused .noTransaction := by
  simp [step, State.takeTransaction, h]

/-- Everything a step can do: it takes one transaction, which is a reset, an instruction or a reserved opcode. -/
theorem step_cases {s s' : State} (h : step s = .next s') :
    ∃ t rest, s.port = t :: rest ∧
      ((t.rst = true ∧ s' = { s with port := rest }.applyReset) ∨
       (t.rst = false ∧ ∃ i, decodeCommand t.cmd = .ok i ∧ exec i { s with port := rest } = .next s') ∨
       (t.rst = false ∧ (∃ e, decodeCommand t.cmd = .error e) ∧ s' = { s with port := rest }.respondError)) := by
  cases hp : s.port with
  | nil => simp [step_nil hp] at h
  | cons t rest =>
    refine ⟨t, rest, rfl, ?_⟩
    rw [step_cons hp, transact] at h
    cases hr : t.rst with
    | true => simp [hr] at h; exact .inl ⟨rfl, h.symm⟩
    | false =>
      simp only [hr] at h
      rcases runCommand_cases t.cmd { s with port := rest } with ⟨i, hi, he⟩ | ⟨e, hd, he⟩
      · exact .inr (.inl ⟨rfl, i, hi, by simpa [he] using h⟩)
      · exact .inr (.inr ⟨rfl, ⟨e, hd⟩, by simpa [he, eq_comm] using h⟩)

end Sys2Proof.Machine
end

