-- ==== Sys2Proof/Tests/Slice0.lean ====
section
/-! SUPPORT. Tests. Every expected number is taken from the spec: the encodings from 30_encoding.md, the values from
95_test_vectors.md or from the example of the instruction's rule. The last part shows, for each statement with
hypotheses, that something meets them. -/

namespace Sys2Proof.Tests

open Sys2Proof Sys2Proof.Machine

/-- A small state: the reset state, but for the descriptor packed as `v`. -/
def holding (v : Word) : State := { State.reset with d := Descriptor.decode v }

/-- The next state, if there is one. -/
def nextState : Host.Outcome State Fault Refusal → Option State
  | .next s => some s
  | .fault _ => none
  | .refused _ => none

/-- What the command port shows after one step: `rsp_data`, `rsp_err`, and the packed descriptor. -/
def shown (o : Host.Outcome State Fault Refusal) : Option (Word × Bool × Word) :=
  (nextState o).map fun s => (s.rspData, s.rspErr, s.d.encode)

/-- One instruction on the descriptor packed as `v`. -/
def run (v : Word) (i : Instr) : Option (Word × Bool × Word) := shown (exec i (holding v))

/-- A query's answer on `v`: the data, no error, the descriptor unchanged. -/
def answers (v : Word) (i : Instr) (data : Word) : Bool := run v i == some (data, false, v)

/-- A mutating command's effect on `v`: answer 0, no error, the descriptor packed as `v'`. -/
def loads (v : Word) (i : Instr) (v' : Word) : Bool := run v i == some (0, false, v')

/-- What the host presents without `rst`. -/
def command (op : Opcode) (arg : Word) : Transaction := { rst := false, cmd := { op := op, arg := arg } }

/-! ## Decoding: the opcode bits of every row of 30_encoding.md R60, written out -/

theorem test_decode_codec :
    decode (0b000000#6 ++ 0x8000000000000003#64) = .ok (.dec 0x8000000000000003) ∧
    decode (0b000001#6 ++ 0x8000000000000003#64) = .ok (.enc 0x8000000000000003) := by
  decide

theorem test_decode_reads :
    decode (0b010000#6 ++ 0x8000000000000003#64) = .ok (.getLimit 0x8000000000000003) ∧
    decode (0b010001#6 ++ 0x8000000000000003#64) = .ok (.getBase 0x8000000000000003) ∧
    decode (0b010010#6 ++ 0x8000000000000003#64) = .ok (.getType 0x8000000000000003) ∧
    decode (0b010011#6 ++ 0x8000000000000003#64) = .ok (.getRing 0x8000000000000003) ∧
    decode (0b010100#6 ++ 0x8000000000000003#64) = .ok (.getPresent 0x8000000000000003) ∧
    decode (0b010101#6 ++ 0x8000000000000003#64) = .ok (.getAvl 0x8000000000000003) ∧
    decode (0b010110#6 ++ 0x8000000000000003#64) = .ok (.getUse32 0x8000000000000003) ∧
    decode (0b010111#6 ++ 0x8000000000000003#64) = .ok (.getUse64 0x8000000000000003) ∧
    decode (0b011000#6 ++ 0x8000000000000003#64) = .ok (.getPgran 0x8000000000000003) := by
  decide

theorem test_decode_writes :
    decode (0b100000#6 ++ 0x8000000000000003#64) = .ok (.setLimit 0x8000000000000003) ∧
    decode (0b100001#6 ++ 0x8000000000000003#64) = .ok (.setBase 0x8000000000000003) ∧
    decode (0b100010#6 ++ 0x8000000000000003#64) = .ok (.setType 0x8000000000000003) ∧
    decode (0b100011#6 ++ 0x8000000000000003#64) = .ok (.setRing 0x8000000000000003) ∧
    decode (0b100100#6 ++ 0x8000000000000003#64) = .ok (.setPresent 0x8000000000000003) ∧
    decode (0b100101#6 ++ 0x8000000000000003#64) = .ok (.setAvl 0x8000000000000003) ∧
    decode (0b100110#6 ++ 0x8000000000000003#64) = .ok (.setUse32 0x8000000000000003) ∧
    decode (0b100111#6 ++ 0x8000000000000003#64) = .ok (.setUse64 0x8000000000000003) ∧
    decode (0b101000#6 ++ 0x8000000000000003#64) = .ok (.setPgran 0x8000000000000003) := by
  decide

theorem test_decode_derived :
    decode (0b110000#6 ++ 0x8000000000000003#64) = .ok (.classify 0x8000000000000003) ∧
    decode (0b110001#6 ++ 0x8000000000000003#64) = .ok (.attrs 0x8000000000000003) ∧
    decode (0b110010#6 ++ 0x8000000000000003#64) = .ok (.isxd 0x8000000000000003) ∧
    decode (0b110011#6 ++ 0x8000000000000003#64) = .ok (.csize 0x8000000000000003) ∧
    decode (0b110100#6 ++ 0x8000000000000003#64) = .ok (.chgtype 0x8000000000000003) ∧
    decode (0b110101#6 ++ 0x8000000000000003#64) = .ok (.clrrsv 0x8000000000000003) ∧
    decode (0b110110#6 ++ 0x8000000000000003#64) = .ok (.notes 0x8000000000000003) := by
  decide

theorem test_decode_bounds :
    decode (0b111000#6 ++ 0x8000000000000003#64) = .ok (.bndOvf 0x8000000000000003) ∧
    decode (0b111001#6 ++ 0x8000000000000003#64) = .ok (.bndSize 0x8000000000000003) ∧
    decode (0b111010#6 ++ 0x8000000000000003#64) = .ok (.bndImin 0x8000000000000003) ∧
    decode (0b111011#6 ++ 0x8000000000000003#64) = .ok (.bndImax 0x8000000000000003) ∧
    decode (0b111100#6 ++ 0x8000000000000003#64) = .ok (.bndLmin 0x8000000000000003) ∧
    decode (0b111101#6 ++ 0x8000000000000003#64) = .ok (.bndLmax 0x8000000000000003) := by
  decide

/-- The 31 reserved opcodes of R66, and no other, are refused. -/
theorem test_decode_reserved :
    (List.range 64).filter (fun n => (decodeCommand ⟨BitVec.ofNat 6 n, 0⟩).toBool = false) =
      [0x02, 0x03, 0x04, 0x05, 0x06, 0x07, 0x08, 0x09, 0x0A, 0x0B, 0x0C, 0x0D, 0x0E, 0x0F,
       0x19, 0x1A, 0x1B, 0x1C, 0x1D, 0x1E, 0x1F, 0x29, 0x2A, 0x2B, 0x2C, 0x2D, 0x2E, 0x2F, 0x37, 0x3E, 0x3F] := by
  decide

theorem test_decode_refuses_by_name :
    decode 0x370000000000001234#70 = .error (.reservedOpcode 0x37) ∧
    decodeNumber 80 (2 ^ 70) = .error .wordTooWide := by
  decide

theorem test_encode_word :
    encode (.setType 0x3A) = 0x22000000000000003A#70 ∧ encode (.bndLmax 0) = 0x3D0000000000000000#70 := by
  decide

theorem test_decodeTableWord :
    decodeTableWord 72 0x340000000000000002 = some (.chgtype 2) ∧
    decodeTableWord 72 0x3E0000000000000000 = none ∧
    decodeTableWord 72 0x800000000000000000 = none := by
  decide

/-- The listing form of 30_encoding.md R58, as 95_test_vectors.md writes it. -/
theorem test_listing :
    String.ofList (listing (encodeCommand (.setBase 0x1DEADBEEF))) = "21:00000001DEADBEEF" := by
  decide

/-! ## WellFormed: for each check a term that it refuses, beside one that it takes -/

theorem test_wellFormed_codec_group :
    Command.wellFormed ⟨0x01, 0⟩ = true ∧ Command.wellFormed ⟨0x02, 0⟩ = false := by decide

theorem test_wellFormed_read_group :
    Command.wellFormed ⟨0x18, 0⟩ = true ∧ Command.wellFormed ⟨0x19, 0⟩ = false := by decide

theorem test_wellFormed_write_group :
    Command.wellFormed ⟨0x28, 1⟩ = true ∧ Command.wellFormed ⟨0x29, 1⟩ = false := by decide

theorem test_wellFormed_derived_group :
    Command.wellFormed ⟨0x36, 0⟩ = true ∧ Command.wellFormed ⟨0x37, 0⟩ = false ∧
    Command.wellFormed ⟨0x3D, 0⟩ = true ∧ Command.wellFormed ⟨0x3E, 0⟩ = false := by decide

theorem test_wellFormed_line_mnemonic :
    AsmLine.wellFormed ⟨"ENC", none⟩ = true ∧ AsmLine.wellFormed ⟨"enc", none⟩ = false := by decide

theorem test_wellFormed_line_missing_operand : AsmLine.wellFormed ⟨"DEC", none⟩ = false := by decide

theorem test_wellFormed_line_unexpected_operand :
    AsmLine.wellFormed ⟨"ENC", some (.literal 0)⟩ = false ∧
    AsmLine.wellFormed ⟨"CLEAR", some (.literal 0)⟩ = false := by decide

theorem test_wellFormed_line_literal :
    AsmLine.wellFormed ⟨"DEC", some (.literal 0xFFFFFFFFFFFFFFFF)⟩ = true ∧
    AsmLine.wellFormed ⟨"DEC", some (.literal 0x10000000000000000)⟩ = false := by decide

theorem test_wellFormed_line_type_name :
    AsmLine.wellFormed ⟨"CHGTYPE", some (.typeName .data)⟩ = true ∧
    AsmLine.wellFormed ⟨"SET.TYPE", some (.typeName .data)⟩ = false := by decide

/-! ## Codec commands (95_test_vectors.md 2.1) -/

theorem test_dec_fields :
    Descriptor.decode 0x123456789ABCDEF0 =
      { limit := 0x4DEF0, base := 0x12789ABC, type := 0b10110, ring := 2, present := false, avlBit := true,
        use32 := false, use64 := true, pageGranularity := false } := by decide

theorem test_dec : loads 0xFFFFFFFFFFFFFFFF (.dec 0x5555555555555555) 0x5555555555555555 = true := by decide

theorem test_enc : answers 0xAAAAAAAAAAAAAAAA (.enc 0xDEADBEEFDEADBEEF) 0xAAAAAAAAAAAAAAAA = true := by decide

/-- The low piece of a split field is the low-order one (30_encoding.md R51). -/
theorem test_enc_split_fields :
    ({ Descriptor.zero with limit := 0xF0000 } : Descriptor).encode = 0x000F000000000000 ∧
    ({ Descriptor.zero with base := 0x00FFFFFF } : Descriptor).encode = 0x000000FFFFFF0000 := by decide

theorem test_get_fields :
    answers 0x123456789ABCDEF0 (.getLimit 0xFFFFFFFFFFFFFFFF) 0x4def0 = true ∧
    answers 0x123456789ABCDEF0 (.getBase 0xFFFFFFFFFFFFFFFF) 0x12789abc = true ∧
    answers 0x123456789ABCDEF0 (.getType 0xFFFFFFFFFFFFFFFF) 0x16 = true ∧
    answers 0x123456789ABCDEF0 (.getRing 0xFFFFFFFFFFFFFFFF) 0x2 = true ∧
    answers 0x123456789ABCDEF0 (.getPresent 0xFFFFFFFFFFFFFFFF) 0x0 = true ∧
    answers 0x123456789ABCDEF0 (.getAvl 0xFFFFFFFFFFFFFFFF) 0x1 = true ∧
    answers 0x123456789ABCDEF0 (.getUse32 0xFFFFFFFFFFFFFFFF) 0x0 = true ∧
    answers 0x123456789ABCDEF0 (.getUse64 0xFFFFFFFFFFFFFFFF) 0x1 = true ∧
    answers 0x123456789ABCDEF0 (.getPgran 0xFFFFFFFFFFFFFFFF) 0x0 = true := by
  decide

theorem test_get_fields_of_aa :
    answers 0xAAAAAAAAAAAAAAAA (.getLimit 0) 0xAAAAA = true ∧
    answers 0xAAAAAAAAAAAAAAAA (.getBase 0) 0xAAAAAAAA = true ∧
    answers 0xAAAAAAAAAAAAAAAA (.getType 0) 0xA = true ∧
    answers 0xAAAAAAAAAAAAAAAA (.getRing 0) 0x1 = true ∧
    answers 0xAAAAAAAAAAAAAAAA (.getPresent 0) 0x1 = true ∧
    answers 0xAAAAAAAAAAAAAAAA (.getAvl 0) 0x0 = true ∧
    answers 0xAAAAAAAAAAAAAAAA (.getUse32 0) 0x0 = true ∧
    answers 0xAAAAAAAAAAAAAAAA (.getUse64 0) 0x1 = true ∧
    answers 0xAAAAAAAAAAAAAAAA (.getPgran 0) 0x1 = true := by
  decide

theorem test_set_masks_its_operand :
    loads 0 (.setLimit 0x123456) 0x0002000000003456 = true ∧
    loads 0 (.setBase 0x1DEADBEEF) 0xDE0000ADBEEF0000 = true ∧
    loads 0 (.setType 0x3A) 0x00001A0000000000 = true ∧
    loads 0 (.setRing 6) 0x0000400000000000 = true ∧
    loads 0 (.setPresent 2) 0 = true ∧
    loads 0 (.setPresent 3) 0x0000800000000000 = true ∧
    loads 0 (.setAvl 1) 0x0010000000000000 = true ∧
    loads 0 (.setUse32 1) 0x0040000000000000 = true ∧
    loads 0 (.setUse64 1) 0x0020000000000000 = true ∧
    loads 0 (.setPgran 0xFFFFFFFFFFFFFFFE) 0 = true ∧
    loads 0 (.setPgran 1) 0x0080000000000000 = true := by
  decide

theorem test_set_leaves_the_other_fields :
    loads 0xFFFFFFFFFFFFFFFF (.setLimit 0) 0xFFF0FFFFFFFF0000 = true ∧
    loads 0xFFFFFFFFFFFFFFFF (.setBase 0) 0x00FFFF000000FFFF = true ∧
    loads 0xFFFFFFFFFFFFFFFF (.setType 0) 0xFFFFE0FFFFFFFFFF = true ∧
    loads 0xFFFFFFFFFFFFFFFF (.setRing 0) 0xFFFF9FFFFFFFFFFF = true ∧
    loads 0xFFFFFFFFFFFFFFFF (.setPresent 0) 0xFFFF7FFFFFFFFFFF = true ∧
    loads 0xFFFFFFFFFFFFFFFF (.setAvl 0) 0xFFEFFFFFFFFFFFFF = true ∧
    loads 0xFFFFFFFFFFFFFFFF (.setUse64 0) 0xFFDFFFFFFFFFFFFF = true ∧
    loads 0xFFFFFFFFFFFFFFFF (.setUse32 0) 0xFFBFFFFFFFFFFFFF = true ∧
    loads 0xFFFFFFFFFFFFFFFF (.setPgran 0) 0xFF7FFFFFFFFFFFFF = true := by
  decide

/-- The bytes of the startup fixture, lowest address first (20_memory.md R42). -/
theorem test_bytes_little_endian :
    wordBytes 0x00CF9A000000FFFF = [0xFF, 0xFF, 0x00, 0x00, 0x00, 0x9A, 0xCF, 0x00] ∧
    bytesWord [0xFF, 0xFF, 0x00, 0x00, 0x00, 0x9A, 0xCF, 0x00] = 0x00CF9A000000FFFF := by decide

/-! ## Classification (95_test_vectors.md 2.2) -/

theorem test_classify :
    answers 0x123456789ABCDEF0 (.classify 0) 0 = true ∧ answers 0x00008B0012340067 (.classify 0) 1 = true ∧
    answers 0x0000FFFF0000FFFF (.classify 0) 2 = true ∧ answers 0x00CF92000000FFFF (.classify 0) 3 = true := by
  decide

theorem test_attrs :
    answers 0xFFFFFFFFFFFFFFFF (.attrs 0) 0x72 = true ∧ answers 0x00CF9A000000FFFF (.attrs 0) 0x22 = true ∧
    answers 0x00008B0012340067 (.attrs 0) 0xB1 = true ∧ answers 0x00409600000000FF (.attrs 0) 0x63 = true ∧
    answers 0x123456789ABCDEF0 (.attrs 0) 0 = true := by
  decide

theorem test_isxd :
    answers 0x00409600000000FF (.isxd 0) 1 = true ∧ answers 0x123456789ABCDEF0 (.isxd 0) 0 = true ∧
    answers 0xFFFFFFFFFFFFFFFF (.isxd 0) 0 = true := by
  decide

theorem test_csize_code :
    answers 0x000F9A000000FFFF (.csize 0) 16 = true ∧ answers 0x00CF9A000000FFFF (.csize 0) 32 = true ∧
    answers 0x00AF9A000000FFFF (.csize 0) 64 = true ∧ answers 0x00EF9A000000FFFF (.csize 0) 0 = true := by
  decide

theorem test_csize_data :
    answers 0xFF8F96FFFFFFFFFF (.csize 0) 16 = true ∧ answers 0x00CF92000000FFFF (.csize 0) 32 = true ∧
    answers 0x00A0920000000000 (.csize 0) 0 = true ∧ answers 0x00EF92000000FFFF (.csize 0) 0 = true := by
  decide

/-! ## Transitions (95_test_vectors.md 2.3) -/

/-- A not-present descriptor keeps every unlisted field, and a change to its own class writes nothing. -/
theorem test_chgtype_from_notPresent :
    loads 0x00E0600012345678 (.chgtype 0) 0x00E0600012345678 = true ∧
    loads 0x00E0600012345678 (.chgtype 1) 0x0080E10012345678 = true ∧
    loads 0x00E0600012345678 (.chgtype 0xFFFFFFFFFFFFFFFE) 0x00E0F80012345678 = true ∧
    loads 0x00E0600012345678 (.chgtype 3) 0x00C0F00012345678 = true := by
  decide

theorem test_chgtype_to_notPresent :
    loads 0x00EF9A000000FFFF (.chgtype 4) 0 = true ∧
    shown (chgtypeUnder { npSetsPresent := true } 0 (holding 0x00EF9A000000FFFF)) =
      some (0, false, 0x0000800000000000) := by
  decide

theorem test_clrrsv_changes :
    loads 0x00608900DEAD0067 (.clrrsv 0) 0x00008900DEAD0067 = true ∧
    loads 0xFFAF9AFFFFFFFFFF (.clrrsv 0) 0x00A09A0000000000 = true ∧
    loads 0x00EF92000000FFFF (.clrrsv 0) 0x00CF92000000FFFF = true := by
  decide

theorem test_clrrsv_leaves :
    loads 0x123456789ABCDEF0 (.clrrsv 0) 0x123456789ABCDEF0 = true ∧
    loads 0x00EF9A000000FFFF (.clrrsv 0xFFFFFFFFFFFFFFFF) 0x00EF9A000000FFFF = true := by
  decide

/-! ## Notes (95_test_vectors.md 2.4) -/

/-- The ordered list, also where two tags stand in it (43_notes.md R110). -/
theorem test_notes_list :
    (Descriptor.decode 0x0040800000000000).configurationNotes = [.reserved, .invalid] ∧
    (Descriptor.decode 0x00AF9A000000FFFF).configurationNotes = [.reserved, .compatX8664] ∧
    (Descriptor.decode 0x0000890000000000).configurationNotes = [.compat386] ∧
    (Descriptor.decode 0x00008C0000000000).configurationNotes = [.invalid] := by
  decide

theorem test_notes :
    answers 0x00007F0000000000 (.notes 0) 0x04 = true ∧ answers 0x0100000000000000 (.notes 0) 0x0C = true ∧
    answers 0x00EF9A000000FFFF (.notes 0) 0x02 = true ∧ answers 0x00209A0000000000 (.notes 0) 0x14 = true ∧
    answers 0x00209A0000010000 (.notes 0) 0x15 = true ∧ answers 0x00A0920000000000 (.notes 0) 0x01 = true := by
  decide

/-! ## Bounds (95_test_vectors.md 2.5) -/

theorem test_bndOvf :
    answers 0x80CF92000000FFFF (.bndOvf 0) 1 = true ∧ answers 0xFF8F96FFFFFFFFFF (.bndOvf 0) 0 = true := by
  decide

theorem test_bndSize :
    answers 0x004F92000000FFFF (.bndSize 0) 0xFFFFF = true ∧ answers 0xFF8F96FFFFFFFFFF (.bndSize 0) 0xFFFFFFFF00010000 = true := by
  decide

theorem test_bndImin :
    answers 0x123456789ABCDEF0 (.bndImin 0) 0 = true ∧ answers 0x00CF96000000FFFF (.bndImin 0) 0x100000000 = true := by
  decide

theorem test_bndImax :
    answers 0x0080000000000000 (.bndImax 0) 0xFFF = true ∧ answers 0x0080960000000010 (.bndImax 0) 0xFFFF = true := by
  decide

theorem test_bndLmin :
    answers 0x00008B0012340067 (.bndLmin 0) 0x1234 = true ∧ answers 0xFF4096FFFFFF0000 (.bndLmin 0) 0xFFFFFFFF = true := by
  decide

theorem test_bndLmax :
    answers 0xAAAAAAAAAAAAAAAA (.bndLmax 0) 0xFFFFFFFF = true ∧ answers 0x00CF96000000FFFF (.bndLmax 0) 0 = true := by
  decide

/-! ## The port, the step, reset -/

/-- `withFetchWord` presents the word, and the next step runs it (95_test_vectors.md 2.7: `NOTES` in the reset state). -/
theorem test_withFetchWord :
    shown (step (State.reset.withFetchWord 72 0x360000000000000000)) = some (0x04, false, 0) := by decide

/-- A reserved opcode (95_test_vectors.md 2.6). -/
theorem test_reserved_opcode :
    shown (step ((holding 0x00CF9A000000FFFF).present ⟨0x37, 0x1234⟩)) = some (0, true, 0x00CF9A000000FFFF) := by decide

/-- Reset wins over the command beside it (70_reset_and_hazards.md R161); the rest of the port stays. -/
theorem test_reset_wins :
    (nextState (step { holding 0x00CF9A000000FFFF with
        port := [{ rst := true, cmd := ⟨0x20, 0xFFFFF⟩ }, command 0x01 0] })).map (fun s => (s.d, s.port, s.draws)) =
      some (Descriptor.zero, [command 0x01 0], 1) := by
  decide

theorem test_step_without_a_transaction : nextState (step State.reset) = none := by decide

theorem test_reset_queries :
    answers 0 (.enc 0) 0 = true ∧ answers 0 (.classify 0) 0 = true ∧ answers 0 (.attrs 0) 0 = true ∧
    answers 0 (.bndSize 0) 0 = true ∧ State.reset.d.encode = 0 := by
  decide

/-! ## The assembler (30_encoding.md R67, R68; lines of 95_test_vectors.md part 3) -/

theorem test_assemble_literals :
    assemble "SET.LIMIT 0x12_3456 ; masked by the block".toList = .ok (some (.setLimit 0x123456)) ∧
    assemble "SET.TYPE 0b11010".toList = .ok (some (.setType 0x1A)) ∧
    assemble "SET.RING 6".toList = .ok (some (.setRing 6)) ∧
    assemble "ENC".toList = .ok (some (.enc 0)) := by
  decide

theorem test_assemble_names :
    assemble "CHGTYPE notPresent".toList = .ok (some (.chgtype 0)) ∧
    assemble "CHGTYPE data".toList = .ok (some (.chgtype 3)) ∧
    assemble "LOADDEF".toList = .ok (some (.dec 0x00CF9A000000FFFF)) ∧
    assemble "; only a comment".toList = .ok none := by
  decide

theorem test_assemble_rejects :
    assemble "DEC 0x1_0000_0000_0000_0000".toList = .error .literalTooLarge ∧
    assemble "DEC".toList = .error .missingOperand ∧
    assemble "NOTES 1".toList = .error .unexpectedOperand ∧
    assemble "SET.TYPE code".toList = .error .typeNameNotAllowed ∧
    assemble "JUMP".toList = .error .unknownMnemonic ∧
    assemble "DEC 0x".toList = .error .badOperand ∧
    assemble "DEC 1 2".toList = .error .tooManyWords := by
  decide

/-! ## Witnesses: for each statement with hypotheses, something that meets them, clause by clause -/

theorem witness_EncodeInvertsDecode : decode 0x3D0000000000000005#70 = .ok (.bndLmax 5) := by decide

/-- Both clauses, at the boundaries of each range of R66. -/
theorem witness_ReservedOpcodeAnswersAnError :
    (∀ op ∈ ([0x02, 0x0F, 0x19, 0x1F, 0x29, 0x2F, 0x37, 0x3E, 0x3F] : List Opcode), isReserved op = true) ∧
    (∀ op ∈ ([0x00, 0x01, 0x10, 0x18, 0x20, 0x28, 0x30, 0x36, 0x38, 0x3D] : List Opcode), isReserved op = false) := by
  decide

theorem witness_StepRunsTheDecodedInstruction :
    ({ State.reset with port := [command 0x20 5, command 0x01 0] } : State).port = command 0x20 5 :: [command 0x01 0] ∧
    decodeCommand (command 0x20 5).cmd = .ok (.setLimit 5) ∧
    decode 0x200000000000000005#70 = .ok (.setLimit 5) := by
  decide

/-- Operands that differ, and agree in the bits used: two bits, one bit, none. -/
theorem witness_IgnoredOperandBitsChangeNothing :
    (0x6 : Word).toNat % 2 ^ operandBits 0x23 = (0x2 : Word).toNat % 2 ^ operandBits 0x23 ∧
    (0x3 : Word).toNat % 2 ^ operandBits 0x28 = (0x1 : Word).toNat % 2 ^ operandBits 0x28 ∧
    (0x8000000000000000 : Word).toNat % 2 ^ operandBits 0x01 = (0 : Word).toNat % 2 ^ operandBits 0x01 ∧
    (7 : Word).toNat % 2 ^ operandBits 0x00 = (7 : Word).toNat % 2 ^ operandBits 0x00 := by
  decide

theorem witness_DecLoadsEveryField : (nextState (exec (.dec 5) State.reset)).isSome = true := by decide

theorem witness_ClassificationLaws :
    (Descriptor.decode 0x0040960000000000).isExpandDown = true ∧
    (Descriptor.decode 0x00AF9A000000FFFF).codeSize = some .size64 ∧
    (Descriptor.decode 0x00EF9A000000FFFF).classify = .code ∧
    (Descriptor.decode 0x00CF92000000FFFF).classify = .data := by
  decide

/-- Each target, from a descriptor of that class and from one of another. -/
theorem witness_ChgtypeWritesTheCanonicalFields :
    ((0x8 : Word).toNat % 4 = 0 ∧ (0x9 : Word).toNat % 4 = 1 ∧ (0xFFFFFFFFFFFFFFFE : Word).toNat % 4 = 2 ∧
      (0xFFFFFFFFFFFFFFFF : Word).toNat % 4 = 3) ∧
    (Descriptor.decode 0).classify = .notPresent ∧ (Descriptor.decode 0x0000810000000000).classify = .system ∧
    (Descriptor.decode 0x0000980000000000).classify = .code ∧
    (Descriptor.decode 0x0000900000000000).classify = .data := by
  decide

theorem witness_ChgtypeToNotPresentInEitherBuild :
    (4 : Word).toNat % 4 = 0 ∧ (holding 0x00CF9A000000FFFF).d.classify ≠ .notPresent := by decide

theorem witness_ChangeTypeReachesItsTarget :
    ({ npSetsPresent := false } : Config).npSetsPresent = false ∧
    ({ npSetsPresent := true } : Config).npSetsPresent = true ∧
    (Descriptor.decode 0x00CF9A000000FFFF).classify ≠ .notPresent := by
  decide

theorem witness_ChangeTypeNeverLandsOnABadSystemOrDataSegment :
    (Descriptor.decode 0x00AF9A000000FFFF).classify ≠ .system ∧ (Descriptor.decode 0x00AF9A000000FFFF).classify ≠ .data ∧
    (Descriptor.decode 0x00EF92000000FFFF).classify ≠ .code ∧
    (Descriptor.decode 0x00EF92000000FFFF).use64 = true ∧ (Descriptor.decode 0x00EF92000000FFFF).use32 = true ∧
    (Descriptor.decode 0x00AF92000000FFFF).classify ≠ .code ∧ (Descriptor.decode 0x00AF92000000FFFF).use32 = false := by
  decide

theorem witness_ClearAllReservedLaws :
    (Descriptor.decode 0x00AF9A000000FFFF).classify ≠ .data ∧ (Descriptor.decode 0x00EF92000000FFFF).classify = .data := by
  decide

/-- The least and the greatest type, and each clause's premise. -/
theorem witness_NotesOfASystemDescriptor :
    ([0x0000800000000000, 0x00008F0000000000, 0x0040890000000000, 0x00008B0000000000, 0x0000810000000000,
        0x0000850000000000].all fun v =>
      (Descriptor.decode v).present && decide ((Descriptor.decode v).type.toNat < 16)) = true ∧
    (Tag.reserved ∈ (Descriptor.decode 0x0040800000000000).configurationNotes ∧
      Tag.invalid ∈ (Descriptor.decode 0x0040800000000000).configurationNotes) ∧
    (Descriptor.decode 0x0040890000000000).type.toNat ∈ [9, 11] ∧
    (Descriptor.decode 0x0000850000000000).type.toNat ∈ [1, 2, 3, 5] := by
  decide

theorem witness_NotesWordIsOneOfEight :
    Tag.invalid ∈ (Descriptor.decode 0x00EF9A000000FFFF).configurationNotes ∧
    Tag.reserved ∈ (Descriptor.decode 0x00AF9A000000FFFF).configurationNotes ∧
    Tag.compatX8664 ∈ (Descriptor.decode 0x00AF9A000000FFFF).configurationNotes := by
  decide

/-- Expand-down: the least and the greatest such type (20 and 23), a greatest linear address clamped at either end. -/
theorem witness_BoundsOfAnExpandDownSegment :
    ([0x0000940000000000, 0x0000970000000000, 0x00CF96000000FFFF, 0xFF4096FFFFFF0000].all fun v =>
      decide ((holding v).d.present = true ∧ (holding v).d.type.toNat / 4 = 5)) = true := by
  decide

/-- Not expand-down: the types beside that range (19 and 24), and a type within it that is not present. -/
theorem witness_BoundsOfEveryOtherDescriptor :
    ([0x0000930000000000, 0x0000980000000000, 0x0000140000000000, 0xFFFFFFFFFFFFFFFF].all fun v =>
      decide (¬ ((holding v).d.present = true ∧ (holding v).d.type.toNat / 4 = 5))) = true := by
  decide

theorem witness_BoundsLaws :
    (Descriptor.decode 0x80CF92000000FFFF).segmentBounds.overflow = true ∧
    (Descriptor.decode 0x80CF92000000FFFF).isExpandDown = false ∧
    ({ Descriptor.decode 0x80CF92000000FFFF with type := 0, present := false } : Descriptor).isExpandDown =
      (Descriptor.decode 0x80CF92000000FFFF).isExpandDown ∧
    ((Descriptor.decode 0x004F92000000FFFF).isExpandDown = false ∧
      (Descriptor.decode 0x004F92000000FFFF).pageGranularity = false ∧
      (Descriptor.decode 0x004F92000000FFFF).use32 = true ∧ (Descriptor.decode 0x004F92000000FFFF).base = 0 ∧
      (Descriptor.decode 0x004F92000000FFFF).limit = 0xFFFFF) ∧
    ((Descriptor.decode 0x0040960000000000).isExpandDown = true ∧ (Descriptor.decode 0x0040960000000000).limit = 0 ∧
      (Descriptor.decode 0x0040960000000000).use32 = true ∧
      (Descriptor.decode 0x0040960000000000).pageGranularity = false ∧
      (Descriptor.decode 0x0040960000000000).base = 0) := by
  decide

theorem witness_ResetWinsOverACommand :
    ({ holding 5 with port := [{ rst := true, cmd := ⟨0x37, 1⟩ }] } : State).port =
      { rst := true, cmd := ⟨0x37, 1⟩ } :: [] := by
  decide

theorem witness_QueriesInTheResetState : (holding 0).d = State.reset.d := by decide

theorem witness_EachFieldHasItsListedWriters :
    (nextState (step ((holding 0x00AF9A000000FFFF).present ⟨0x35, 0⟩))).map (fun s => decide (s.d.limit ≠ (0xFFFFF : BitVec 20))) =
      some true := by
  decide

theorem witness_QueriesLeaveDAndRepeat :
    ({ holding 5 with port := [command 0x31 0, command 0x31 0] } : State).port = command 0x31 0 :: command 0x31 0 :: [] ∧
    (command 0x31 0).rst = false ∧ writesD (command 0x31 0).cmd.op = false ∧ writesD 0x37 = false := by
  decide

/-- Two states that differ in all but `D`, and, for `DEC`, in `D` too. -/
theorem witness_StepDependsOnDAndTheCommandAlone :
    (holding 5).d = ({ holding 5 with rspData := 7, rspErr := true, draws := 3 } : State).d ∧
    ((holding 5).present ⟨0x30, 0⟩).port = command 0x30 0 :: [] ∧
    (holding 5).d ≠ (holding 6).d ∧ (⟨0x00, 9⟩ : Command).op = 0x00#6 := by
  decide

theorem witness_EveryTransactionIsAnswered :
    ((holding 5).present ⟨0x37, 0⟩).port = command 0x37 0 :: [] ∧ (holding 5).port = [] := by
  decide

theorem witness_RingIsReadByEncAndGetRingAlone :
    sameButRing ((holding 0x00CF9A000000FFFF).present ⟨0x34, 1⟩) ((holding 0x00CFFA000000FFFF).present ⟨0x34, 1⟩) ∧
    (holding 0x00CF9A000000FFFF).d ≠ (holding 0x00CFFA000000FFFF).d ∧
    (∀ t ∈ ((holding 0x00CF9A000000FFFF).present ⟨0x34, 1⟩).port, t.rst = true ∨ showsRing t.cmd.op = false) := by
  unfold sameButRing
  decide

theorem witness_NoModeConflictArisesUnasked :
    ((holding 0x00A0920000000000).present ⟨0x34, 2⟩).ConflictFree ∧
    (nextState (step ((holding 0x00A0920000000000).present ⟨0x34, 2⟩))).isSome = true := by
  unfold State.ConflictFree
  decide

end Sys2Proof.Tests
end

section
/-! SUPPORT. From a command word to the step that runs it (00_scope.md R11, 30_encoding.md R57, R58). -/

namespace Sys2Proof.Machine

/-- A transaction without `rst` runs its command. -/
theorem step_command {s : State} {c : Command} {rest : List Transaction}
    (h : s.port = { rst := false, cmd := c } :: rest) : step s = runCommand c { s with port := rest } := by
  rw [step_cons h]; rfl

/-- What the host presents is run next, on the state it was presented in. -/
@[simp] theorem step_present (s : State) (c : Command) : step (s.present c) = runCommand c s :=
  step_command (State.present_port s c)

theorem runCommand_of_decode_ok {c : Command} {i : Instr} (h : decodeCommand c = .ok i) (s : State) :
    runCommand c s = exec i s := by
  simp [runCommand, h]

theorem runCommand_of_decode_error {c : Command} {e : DecodeError} (h : decodeCommand c = .error e) (s : State) :
    runCommand c s = .next s.respondError := by
  simp [runCommand, h]

/-- A command word is below 2 ^ 72, so the 72 bits the host writes it in hold it whole. -/
theorem commandWord_toNat_mod (w : CommandWord) : w.toNat % 2 ^ 72 = w.toNat :=
  Nat.mod_eq_of_lt (w.isLt.trans (by decide))

@[simp] theorem numberCommand_toNat (w : CommandWord) : numberCommand 72 w.toNat = Command.ofWord w := by
  rw [numberCommand, commandWord_toNat_mod, BitVec.ofNat_toNat, BitVec.setWidth_eq]

@[simp] theorem decodeNumber_toNat (w : CommandWord) : decodeNumber 72 w.toNat = decode w := by
  rw [decodeNumber, commandWord_toNat_mod, if_pos w.isLt, BitVec.ofNat_toNat, BitVec.setWidth_eq]

/-- Settles O6: a step runs the command of the transaction it takes, and a command word keeps its bits as a number. -/
theorem stepRunsTheDecodedInstruction : Obligations.StepRunsTheDecodedInstruction := by
  unfold Obligations.StepRunsTheDecodedInstruction
  constructor
  · intro s c rest i hport hdecode
    rw [step_command hport, runCommand_of_decode_ok hdecode]
  · intro s w i hdecode
    constructor
    · rw [State.withFetchWord, step_present, numberCommand_toNat, runCommand_of_decode_ok hdecode]
    · rw [decodeTableWord, decodeNumber_toNat, hdecode]

end Sys2Proof.Machine
end

section
/-! SUPPORT. A step reads nothing but `D` and its command, and `DEC` not even `D` (00_scope.md R11, 20_memory.md R46). -/

namespace Sys2Proof.Machine

/-- Both outcomes are next states, with one `D` and one response. -/
def AgreeOnDAndResponse (o₁ o₂ : Host.Outcome State Fault Refusal) : Prop :=
  ∃ u₁ u₂, o₁ = .next u₁ ∧ o₂ = .next u₂ ∧ u₁.d = u₂.d ∧ u₁.response = u₂.response

variable {s₁ s₂ : State}

theorem Completes.agree {o₁ o₂ : Host.Outcome State Fault Refusal} {d : Descriptor} {data : Word}
    (h₁ : Completes o₁ s₁ d data) (h₂ : Completes o₂ s₂ d data) : AgreeOnDAndResponse o₁ o₂ :=
  ⟨_, _, h₁, h₂, rfl, rfl⟩

/-- An instruction is a query or a mutation of `D` (R44): what it leaves in `D` and answers comes from `D` alone. -/
theorem exec_completes_alike (i : Instr) (hd : s₁.d = s₂.d) :
    ∃ d data, Completes (exec i s₁) s₁ d data ∧ Completes (exec i s₂) s₂ d data := by
  obtain ⟨d, port₁, rspData₁, rspErr₁, draws₁⟩ := s₁
  obtain ⟨_, port₂, rspData₂, rspErr₂, draws₂⟩ := s₂
  obtain rfl := hd
  cases i <;> exact ⟨_, _, rfl, rfl⟩

/-- A command that is defined runs its instruction, a reserved one leaves `D` and answers the error (R66). -/
theorem runCommand_agree (c : Command) (hd : s₁.d = s₂.d) :
    AgreeOnDAndResponse (runCommand c s₁) (runCommand c s₂) := by
  cases h : decodeCommand c with
  | ok i =>
    obtain ⟨d, data, h₁, h₂⟩ := exec_completes_alike i hd
    rw [runCommand_of_decode_ok h, runCommand_of_decode_ok h]
    exact h₁.agree h₂
  | error e => exact ⟨_, _, runCommand_of_decode_error h s₁, runCommand_of_decode_error h s₂, hd, rfl⟩

theorem decodeCommand_dec {c : Command} (h : c.op = 0x00#6) : decodeCommand c = .ok (.dec c.arg) := by
  rw [decodeCommand, h]; rfl

/-- `DEC` loads its operand's descriptor, whatever stood in `D` (40_codec.md R69). -/
theorem exec_dec_completes (arg : Word) (s : State) :
    Completes (exec (.dec arg) s) s (Descriptor.decode arg) 0 := rfl

theorem runCommand_dec_completes {c : Command} (h : c.op = 0x00#6) (s : State) :
    Completes (runCommand c s) s (Descriptor.decode c.arg) 0 := by
  rw [runCommand_of_decode_ok (decodeCommand_dec h)]
  exact exec_dec_completes c.arg s

end Sys2Proof.Machine
end

section
namespace Sys2Proof.Machine

/-- Settles O41: every command works from `D` alone, and `DEC` from its operand alone. -/
theorem stepDependsOnDAndTheCommandAlone : Obligations.StepDependsOnDAndTheCommandAlone := by
  unfold Obligations.StepDependsOnDAndTheCommandAlone
  intro s₁ s₂ c rest₁ rest₂ hport₁ hport₂ hsame
  rw [step_command hport₁, step_command hport₂]
  obtain hd | hop := hsame
  · exact runCommand_agree c hd
  · exact (runCommand_dec_completes hop _).agree (runCommand_dec_completes hop _)

end Sys2Proof.Machine
end

section
/-! SUPPORT. What a step can leave in `D`, said once (10_state.md R20, 30_encoding.md R60). -/

namespace Sys2Proof.Machine

/-- Every row of the opcode map builds instructions of its own opcode, around the operand it is given (R60). -/
theorem opcodeRows_opcode_arg (arg : Word) :
    ∀ r ∈ opcodeRows, (r.2 arg).opcode = r.1 ∧ (r.2 arg).arg = arg := by
  simp [opcodeRows, codecRows, readRows, writeRows, derivedRows, boundsRows, Instr.opcode, Instr.arg]

/-- A command decodes to no instruction but the one it encodes (R58, R60). -/
theorem encodeCommand_of_decode_ok {c : Command} {i : Instr} (h : decodeCommand c = .ok i) : encodeCommand i = c := by
  unfold decodeCommand at h
  split at h
  · next row hrow =>
    obtain ⟨hop, harg⟩ := opcodeRows_opcode_arg c.arg _ (mem_of_lookup hrow)
    cases h
    rw [encodeCommand, hop, harg]
  · cases h

/-- No opcode outside the map writes `D` (R60, R66). -/
theorem writesD_of_lookup_isNone : ∀ op : Opcode, (opcodeRows.lookup op).isNone → writesD op = false := by
  decide

theorem writesD_of_decode_error {c : Command} {e : DecodeError} (h : decodeCommand c = .error e) :
    writesD c.op = false := by
  apply writesD_of_lookup_isNone
  unfold decodeCommand at h
  split at h
  · cases h
  · next hrow => rw [hrow]; rfl

/-- The opcode of the `SET` command that writes a field (R60). -/
def Field.setOpcode : Field → Opcode
  | .limit => 0x20#6
  | .base => 0x21#6
  | .type => 0x22#6
  | .ring => 0x23#6
  | .present => 0x24#6
  | .avlBit => 0x25#6
  | .use32 => 0x26#6
  | .use64 => 0x27#6
  | .pageGranularity => 0x28#6

/-- What a command makes of the descriptor `d`: each writer of R60 its own value, every other command nothing. -/
inductive CommandEffect (c : Command) (d : Descriptor) : Descriptor → Prop
  | kept (hop : writesD c.op = false) : CommandEffect c d d
  | dec (hop : c.op = 0x00#6) : CommandEffect c d (Descriptor.decode c.arg)
  | set (f : Field) (hop : c.op = f.setOpcode) : CommandEffect c d (d.set f c.arg)
  | chgtype (hop : c.op = 0x34#6) : CommandEffect c d (d.changeType Config.block (argTarget c.arg))
  | clrrsv (hop : c.op = 0x35#6) : CommandEffect c d d.clearAllReserved

/-- An instruction has the effect of its command. -/
theorem exec_effect (i : Instr) (s : State) :
    ∃ d data, Completes (exec i s) s d data ∧ CommandEffect (encodeCommand i) s.d d := by
  cases i with
  | dec _ => exact ⟨_, _, rfl, .dec rfl⟩
  | setLimit _ => exact ⟨_, _, rfl, .set .limit rfl⟩
  | setBase _ => exact ⟨_, _, rfl, .set .base rfl⟩
  | setType _ => exact ⟨_, _, rfl, .set .type rfl⟩
  | setRing _ => exact ⟨_, _, rfl, .set .ring rfl⟩
  | setPresent _ => exact ⟨_, _, rfl, .set .present rfl⟩
  | setAvl _ => exact ⟨_, _, rfl, .set .avlBit rfl⟩
  | setUse32 _ => exact ⟨_, _, rfl, .set .use32 rfl⟩
  | setUse64 _ => exact ⟨_, _, rfl, .set .use64 rfl⟩
  | setPgran _ => exact ⟨_, _, rfl, .set .pageGranularity rfl⟩
  | chgtype _ => exact ⟨_, _, rfl, .chgtype rfl⟩
  | clrrsv _ => exact ⟨_, _, rfl, .clrrsv rfl⟩
  | _ => exact ⟨_, _, rfl, .kept rfl⟩

/-- A step takes one transaction off the port; `D` is all zero after `rst` (70_reset_and_hazards.md R160, R161), and what
the command makes of it otherwise. -/
theorem step_port_and_effect {s s' : State} (h : step s = .next s') :
    ∃ t, s.port = t :: s'.port ∧
      ((t.rst = true ∧ s'.d = Descriptor.zero) ∨ (t.rst = false ∧ CommandEffect t.cmd s.d s'.d)) := by
  obtain ⟨t, rest, hport, ⟨hrst, rfl⟩ | ⟨hrst, i, hi, hexec⟩ | ⟨hrst, ⟨e, he⟩, rfl⟩⟩ := step_cases h
  · exact ⟨t, hport, .inl ⟨hrst, rfl⟩⟩
  · obtain ⟨d, data, hdone, heffect⟩ := exec_effect i { s with port := rest }
    rw [Completes, hexec] at hdone
    cases hdone
    rw [encodeCommand_of_decode_ok hi] at heffect
    exact ⟨t, hport, .inr ⟨hrst, heffect⟩⟩
  · exact ⟨t, hport, .inr ⟨hrst, .kept (writesD_of_decode_error he)⟩⟩

end Sys2Proof.Machine
end

section
/-! SUPPORT. What the two transitions can make of a descriptor (42_transitions.md R100, R106). -/

namespace Sys2Proof.Machine

/-- A change of type leaves a descriptor of the target's class and gives any other the target's form (R100). -/
theorem Descriptor.changeType_cases (c : Config) (d : Descriptor) (t : SegmentType) :
    d.changeType c t = d ∨
    (t = .notPresent ∧ d.changeType c t = toNotPresent c) ∨
    (t = .system ∧ d.changeType c t = d.toSystem) ∨
    (t = .code ∧ d.changeType c t = d.toCode) ∨
    (t = .data ∧ d.changeType c t = d.toData) := by
  unfold Descriptor.changeType
  split
  · exact .inl rfl
  · cases t <;> simp

/-- Clearing writes the flags of a system descriptor, base and limit of 64-bit code, `use64` of data (R106). -/
theorem Descriptor.clearAllReserved_cases (d : Descriptor) :
    d.clearAllReserved = d ∨
    (d.classify = .system ∧ d.clearAllReserved = { d with use64 := false, use32 := false }) ∨
    ((d.classify = .code ∧ d.codeSize = some .size64) ∧ d.clearAllReserved = { d with base := 0, limit := 0 }) ∨
    (d.classify = .data ∧ d.clearAllReserved = { d with use64 := false }) := by
  unfold Descriptor.clearAllReserved
  cases d.classify with
  | notPresent => exact .inl rfl
  | system => exact .inr (.inl ⟨rfl, rfl⟩)
  | code =>
    by_cases hsize : d.codeSize = some .size64
    · simp [hsize]
    · simp [hsize]
  | data => simp

/-- The target of a change of type, as a number, is the operand modulo 4 (30_encoding.md R59, R61). -/
theorem argTarget_code (arg : Word) : (code2 (argTarget arg)).toNat = arg.toNat % 4 := by
  simp [argTarget, argLow]

end Sys2Proof.Machine
end

section
/-! SUPPORT. Where a mode conflict can come from (00_scope.md R12, 10_state.md R27, R28). -/

namespace Sys2Proof.Machine

/-- No change of type makes a mode conflict: no target sets a size flag (R100). -/
theorem Descriptor.changeType_modeConflict {d : Descriptor} (c : Config) (t : SegmentType)
    (h : d.modeConflict = false) : (d.changeType c t).modeConflict = false := by
  unfold Descriptor.modeConflict at *
  obtain heq | ⟨-, heq⟩ | ⟨-, heq⟩ | ⟨-, heq⟩ | ⟨-, heq⟩ := d.changeType_cases c t <;> simp [heq, h]

/-- Clearing makes no mode conflict: it sets no size flag (R106). -/
theorem Descriptor.clearAllReserved_modeConflict {d : Descriptor} (h : d.modeConflict = false) :
    d.clearAllReserved.modeConflict = false := by
  unfold Descriptor.modeConflict at *
  obtain heq | ⟨-, heq⟩ | ⟨-, heq⟩ | ⟨-, heq⟩ := d.clearAllReserved_cases <;> simp [heq, h]

/-- Writing a field with a command that sets no size flag keeps both flags (40_codec.md R71). -/
theorem Descriptor.set_modeConflict (d : Descriptor) {f : Field} (hf : setsSizeFlags f.setOpcode = false) (arg : Word) :
    (d.set f arg).modeConflict = d.modeConflict := by
  cases f with
  | use32 => cases hf
  | use64 => cases hf
  | _ => rfl

/-- A command that sets no size flag makes no mode conflict. -/
theorem CommandEffect.modeConflict {c : Command} {d d' : Descriptor} (heffect : CommandEffect c d d')
    (hop : setsSizeFlags c.op = false) (h : d.modeConflict = false) : d'.modeConflict = false := by
  cases heffect with
  | kept => exact h
  | dec hdec => rw [hdec] at hop; cases hop
  | set f hset => rw [d.set_modeConflict (hset ▸ hop), h]
  | chgtype => exact d.changeType_modeConflict _ _ h
  | clrrsv => exact d.clearAllReserved_modeConflict h

/-- Settles O46: the invariant is inductive, as neither `rst` nor a command but those three sets a size flag. -/
theorem noModeConflictArisesUnasked : Obligations.NoModeConflictArisesUnasked := by
  unfold Obligations.NoModeConflictArisesUnasked
  rintro s s' ⟨hd, hport⟩ hstep
  obtain ⟨t, htake, hcase⟩ := step_port_and_effect hstep
  rw [htake, List.forall_mem_cons] at hport
  obtain ⟨ht, hrest⟩ := hport
  refine ⟨?_, hrest⟩
  obtain ⟨-, hzero⟩ | ⟨-, heffect⟩ := hcase
  · rw [hzero]; rfl
  · exact heffect.modeConflict ht hd

/-- Settles O47: the reset state holds the zero descriptor and an empty port. -/
theorem resetStateHasNoModeConflict : Obligations.ResetStateHasNoModeConflict :=
  ⟨rfl, fun _ ht => absurd ht List.not_mem_nil⟩

end Sys2Proof.Machine
end

section
/-! SUPPORT. Each field's writers (10_state.md R21 to R29), one effect of a command at a time. -/

namespace Sys2Proof.Machine

/-- Settles O39: each effect leaves every field that does not list it. `rst` and `DEC` stand in all nine lists, a `SET` in
its own field's; `CHGTYPE` writes by its target and `CLRRSV` by the class. -/
theorem eachFieldHasItsListedWriters : Obligations.EachFieldHasItsListedWriters := by
  unfold Obligations.EachFieldHasItsListedWriters
  intro s s' hstep
  obtain ⟨t, hport, hcase⟩ := step_port_and_effect hstep
  refine ⟨t, s'.port, hport, ?_⟩
  obtain ⟨hrst, -⟩ | ⟨-, heffect⟩ := hcase
  · simp [hrst]
  generalize s'.d = d' at heffect
  cases heffect with
  | kept => simp
  | dec hop => simp [hop]
  | set f hop => cases f <;> simp [hop, Field.setOpcode, Descriptor.set]
  | chgtype hop =>
    simp only [← argTarget_code]
    generalize argTarget t.cmd.arg = target
    obtain heq | ⟨rfl, heq⟩ | ⟨rfl, heq⟩ | ⟨rfl, heq⟩ | ⟨rfl, heq⟩ := s.d.changeType_cases Config.block target <;>
      simp [hop, heq, code2]
  | clrrsv hop =>
    obtain heq | ⟨hclass, heq⟩ | ⟨hclass, heq⟩ | ⟨hclass, heq⟩ := s.d.clearAllReserved_cases
    · simp [heq]
    all_goals simp [hop, heq, hclass]

end Sys2Proof.Machine
end

section
/-! SUPPORT. Two runs that differ in `ring` at most (10_state.md R24). -/

namespace Sys2Proof.Machine

/-- The descriptor with another `ring`. -/
def Descriptor.withRing (d : Descriptor) (r : BitVec 2) : Descriptor := { d with ring := r }

/-- The state with another `ring` in `D`. -/
def State.withRing (s : State) (r : BitVec 2) : State := { s with d := s.d.withRing r }

@[simp] theorem State.withRing_d (s : State) (r : BitVec 2) : (s.withRing r).d = s.d.withRing r := rfl
@[simp] theorem State.withRing_port (s : State) (r : BitVec 2) : (s.withRing r).port = s.port := rfl
@[simp] theorem State.withRing_response (s : State) (r : BitVec 2) : (s.withRing r).response = s.response := rfl

theorem sameButRing_iff {s s' : State} : sameButRing s s' ↔ ∃ r, s' = s.withRing r :=
  ⟨fun h => ⟨_, h⟩, by rintro ⟨r, rfl⟩; rfl⟩

@[simp] theorem Descriptor.withRing_classify (d : Descriptor) (r : BitVec 2) :
    (d.withRing r).classify = d.classify := rfl

@[simp] theorem Descriptor.withRing_codeSize (d : Descriptor) (r : BitVec 2) :
    (d.withRing r).codeSize = d.codeSize := rfl

/-- `ring` does not decide what is reserved, and is not reserved itself (42_transitions.md R106). -/
theorem Descriptor.clearAllReserved_withRing (d : Descriptor) (r : BitVec 2) :
    (d.withRing r).clearAllReserved = d.clearAllReserved.withRing r := by
  unfold Descriptor.clearAllReserved
  rw [d.withRing_classify, d.withRing_codeSize]
  cases d.classify with
  | code =>
    dsimp only
    rw [apply_ite (Descriptor.withRing · r)]
    rfl
  | _ => rfl

/-- A change of type keeps `ring` or zeroes it, and `ring` decides nothing else (R100, R102). -/
theorem Descriptor.changeType_withRing (c : Config) (d : Descriptor) (t : SegmentType) (r : BitVec 2) :
    ∃ r', (d.withRing r).changeType c t = (d.changeType c t).withRing r' := by
  unfold Descriptor.changeType
  rw [d.withRing_classify]
  split
  · exact ⟨r, rfl⟩
  · cases t with
    | notPresent => exact ⟨0, rfl⟩
    | _ => exact ⟨r, rfl⟩

/-- Both outcomes are next states, and the second is the first but for `ring`. -/
def AgreeButRing (o o' : Host.Outcome State Fault Refusal) : Prop :=
  ∃ s r, o = .next s ∧ o' = .next (s.withRing r)

theorem mutate_withRing (f : Descriptor → Descriptor) {s : State} {r : BitVec 2}
    (hf : ∃ r', f (s.d.withRing r) = (f s.d).withRing r') : AgreeButRing (mutate f s) (mutate f (s.withRing r)) := by
  obtain ⟨r', hr'⟩ := hf
  refine ⟨_, r', rfl, ?_⟩
  rw [mutate, State.withRing_d, hr']
  rfl

/-- A command that does not show `ring` carries a difference in `ring` on and adds no other (R24). -/
theorem exec_withRing {i : Instr} (hi : showsRing i.opcode = false) (s : State) (r : BitVec 2) :
    AgreeButRing (exec i s) (exec i (s.withRing r)) := by
  cases i with
  | enc _ => cases hi
  | getRing _ => cases hi
  | dec arg => exact ⟨_, (Descriptor.decode arg).ring, rfl, rfl⟩
  | setRing arg => exact ⟨_, argLow 2 arg, rfl, rfl⟩
  | chgtype arg =>
    exact mutate_withRing (·.changeType Config.block (argTarget arg)) (s.d.changeType_withRing Config.block _ r)
  | clrrsv _ => exact mutate_withRing _ ⟨r, s.d.clearAllReserved_withRing r⟩
  | _ => exact ⟨_, r, rfl, rfl⟩

/-- A step that takes `rst` or a command not showing `ring` does so too. -/
theorem step_withRing {s : State} {t : Transaction} {rest : List Transaction} (hport : s.port = t :: rest)
    (ht : t.rst = true ∨ showsRing t.cmd.op = false) (r : BitVec 2) :
    AgreeButRing (step s) (step (s.withRing r)) := by
  rw [step_cons hport, step_cons (s := s.withRing r) hport, transact, transact]
  cases hrst : t.rst with
  | true => exact ⟨_, 0, rfl, rfl⟩
  | false =>
    simp only [hrst, Bool.false_eq_true, false_or, if_false] at ht ⊢
    cases hdecode : decodeCommand t.cmd with
    | ok i =>
      rw [runCommand_of_decode_ok hdecode, runCommand_of_decode_ok hdecode]
      rw [← encodeCommand_of_decode_ok hdecode] at ht
      exact exec_withRing ht _ r
    | error e =>
      rw [runCommand_of_decode_error hdecode, runCommand_of_decode_error hdecode]
      exact ⟨_, r, rfl, rfl⟩

end Sys2Proof.Machine
end

section
/-! SUPPORT. The responses of a run, step by step. -/

namespace Sys2Proof.Machine

theorem responses_of_next {s s' : State} (h : step s = .next s') (k : Nat) :
    responses (k + 1) s = s'.response :: responses k s' := by
  simp [responses, h]

theorem responses_of_port_nil {s : State} (h : s.port = []) (k : Nat) : responses k s = [] := by
  cases k with
  | zero => rfl
  | succ k => simp [responses, step_nil h]

/-- By induction on the run: each step answers alike and hands the difference in `ring` on. -/
theorem responses_withRing (k : Nat) (s : State) (r : BitVec 2)
    (hquiet : ∀ t ∈ s.port, t.rst = true ∨ showsRing t.cmd.op = false) :
    responses k (s.withRing r) = responses k s := by
  induction k generalizing s r with
  | zero => rfl
  | succ k ih =>
    cases hport : s.port with
    | nil => rw [responses_of_port_nil hport, responses_of_port_nil (s := s.withRing r) hport]
    | cons t rest =>
      obtain ⟨s₁, r₁, hstep, hstep'⟩ := step_withRing hport (hquiet t (by simp [hport])) r
      obtain ⟨t₁, htake, -⟩ := step_port_and_effect hstep
      have hquiet₁ : ∀ t ∈ s₁.port, t.rst = true ∨ showsRing t.cmd.op = false :=
        fun t ht => hquiet t (htake ▸ List.mem_cons_of_mem t₁ ht)
      rw [responses_of_next hstep, responses_of_next hstep', s₁.withRing_response, ih s₁ r₁ hquiet₁]

/-- Settles O44: the runs stay apart in `ring` alone, and no response on the way reads it. -/
theorem ringIsReadByEncAndGetRingAlone : Obligations.RingIsReadByEncAndGetRingAlone := by
  unfold Obligations.RingIsReadByEncAndGetRingAlone
  intro k s s' hsame hquiet
  obtain ⟨r, rfl⟩ := sameButRing_iff.mp hsame
  exact (responses_withRing k s r hquiet).symm

end Sys2Proof.Machine
end

section
/-! SUPPORT. The packed word holds the whole descriptor (30_encoding.md R53, R55). -/

namespace Sys2Proof.Machine

/-- The slice at a piece's own place is the piece's value (R53). -/
theorem piece_slice_same {n m : Nat} (v : BitVec m) {k : Nat} (h : k + n ≤ 64) :
    (piece n v k).extractLsb' k n = v.setWidth n := by
  apply BitVec.eq_of_getLsbD_eq
  intro i hi
  rw [BitVec.getLsbD_extractLsb', piece_getLsbD, BitVec.getLsbD_setWidth]
  simp [hi, show k + i < 64 by omega]

/-- A slice that does not meet a piece's place is 0 there (R53). -/
theorem piece_slice_disjoint {n m : Nat} (v : BitVec m) {k k' n' : Nat} (h : k' + n' ≤ k ∨ k + n ≤ k') :
    (piece n v k).extractLsb' k' n' = 0#n' := by
  apply BitVec.eq_of_getLsbD_eq
  intro i hi
  rw [BitVec.getLsbD_extractLsb', piece_getLsbD]
  obtain h | h := h
  · simp [show ¬ k ≤ k' + i by omega]
  · simp [show ¬ k' + i - k < n by omega]

/-- The slices of the packed word are the pieces of R53, each with its field's bits and no other's. -/
theorem Descriptor.encode_slices (d : Descriptor) :
    d.encode.extractLsb' 0 16 = d.limit.setWidth 16 ∧
    d.encode.extractLsb' 48 4 = (d.limit >>> 16).setWidth 4 ∧
    d.encode.extractLsb' 16 24 = d.base.setWidth 24 ∧
    d.encode.extractLsb' 56 8 = (d.base >>> 24).setWidth 8 ∧
    d.encode.extractLsb' 40 5 = d.type ∧
    d.encode.extractLsb' 45 2 = d.ring := by
  refine ⟨?_, ?_, ?_, ?_, ?_, ?_⟩ <;>
    simp [Descriptor.encode, BitVec.extractLsb'_or, piece_slice_same, piece_slice_disjoint]

/-- The single bits of the packed word are the one-bit fields (R53). -/
theorem Descriptor.encode_bits (d : Descriptor) :
    d.encode.getLsbD 47 = d.present ∧
    d.encode.getLsbD 52 = d.avlBit ∧
    d.encode.getLsbD 53 = d.use64 ∧
    d.encode.getLsbD 54 = d.use32 ∧
    d.encode.getLsbD 55 = d.pageGranularity := by
  simp only [Descriptor.encode, BitVec.getLsbD_or, piece_getLsbD]
  refine ⟨?_, ?_, ?_, ?_, ?_⟩ <;> simp

/-- A value cut at a bit is put together again from its two parts (R51). -/
theorem ushiftRight_append_setWidth {m n : Nat} (v : BitVec (m + n)) : (v >>> n).setWidth m ++ v.setWidth n = v := by
  apply BitVec.eq_of_getLsbD_eq
  intro i hi
  rw [BitVec.getLsbD_append, BitVec.getLsbD_setWidth, BitVec.getLsbD_setWidth, BitVec.getLsbD_ushiftRight]
  by_cases hlow : i < n
  · simp [hlow]
  · simp [hlow, show i - n < m by omega, show n + (i - n) = i by omega]

/-- Unpacking inverts packing (R55). -/
theorem Descriptor.decode_encode (d : Descriptor) : Descriptor.decode d.encode = d := by
  obtain ⟨hlimitLow, hlimitHigh, hbaseLow, hbaseHigh, htype, hring⟩ := d.encode_slices
  obtain ⟨hpresent, havlBit, huse64, huse32, hpageGranularity⟩ := d.encode_bits
  have hlimit : (Descriptor.decode d.encode).limit = d.limit := by
    rw [Descriptor.decode, hlimitHigh, hlimitLow]
    exact ushiftRight_append_setWidth (m := 4) (n := 16) d.limit
  have hbase : (Descriptor.decode d.encode).base = d.base := by
    rw [Descriptor.decode, hbaseHigh, hbaseLow]
    exact ushiftRight_append_setWidth (m := 8) (n := 24) d.base
  exact Descriptor.ext_fields hlimit hbase htype hring hpresent havlBit huse32 huse64 hpageGranularity

/-- The packed view of a state stands for that state (10_state.md R36). -/
@[simp] theorem State.unpack_pack (s : State) : s.pack.unpack = s := by
  simp [State.pack, PackedState.unpack, Descriptor.decode_encode]

/-- The packed machine answers as the machine does, as its step is the machine's between packing and unpacking. -/
theorem packedResponses_pack (k : Nat) (s : State) : packedResponses k s.pack = responses k s := by
  induction k generalizing s with
  | zero => rfl
  | succ k ih =>
    simp only [packedResponses, responses, packedStep, State.unpack_pack]
    cases step s with
    | next s' => exact congrArg (s'.response :: ·) (ih s')
    | fault r => rfl
    | refused r => rfl

/-- Settles O45: unpacking inverts packing, so the packed machine steps as the machine does. -/
theorem packedViewIsIndistinguishable : Obligations.PackedViewIsIndistinguishable :=
  packedResponses_pack

end Sys2Proof.Machine
end

section
/-! SUPPORT. The reset state as data (10_state.md R37). -/

namespace Sys2Proof.Machine

/-- Settles O35: the reset state is a constant, and its fields, its packed word and its class are computed from it. -/
theorem resetStateIsAllZero : Obligations.ResetStateIsAllZero := by
  unfold Obligations.ResetStateIsAllZero
  exact ⟨rfl, by decide, rfl⟩

end Sys2Proof.Machine
end

section
/-! SUPPORT. A query leaves `D` alone, so asked again it meets the same `D` (20_memory.md R44). -/

namespace Sys2Proof.Machine

/-- Of the effects of a command, only the one that keeps the descriptor belongs to an opcode that is no writer of `D`. -/
theorem CommandEffect.eq_of_not_writesD {c : Command} {d d' : Descriptor} (heffect : CommandEffect c d d')
    (hop : writesD c.op = false) : d' = d := by
  cases heffect with
  | kept => rfl
  | dec hdec => rw [hdec] at hop; cases hop
  | set f hset => rw [hset] at hop; cases f <;> cases hop
  | chgtype hchg => rw [hchg] at hop; cases hop
  | clrrsv hclr => rw [hclr] at hop; cases hop

/-- A step that takes a query moves on to the next transaction with the same `D`. -/
theorem step_query_port_d {s s' : State} {t : Transaction} {rest : List Transaction} (hport : s.port = t :: rest)
    (hrst : t.rst = false) (hop : writesD t.cmd.op = false) (hstep : step s = .next s') :
    s'.port = rest ∧ s'.d = s.d := by
  obtain ⟨t', htake, hcase⟩ := step_port_and_effect hstep
  obtain ⟨rfl, hrest⟩ := List.cons.inj (hport.symm.trans htake)
  obtain ⟨hreset, -⟩ | ⟨-, heffect⟩ := hcase
  · rw [hrst] at hreset; cases hreset
  · exact ⟨hrest.symm, heffect.eq_of_not_writesD hop⟩

/-- Settles O40: the first answer leaves `D`, and a response comes from `D` and the command alone (O41), so the second
answer, given from the state the first one left, is the first one's. -/
theorem queriesLeaveDAndRepeat : Obligations.QueriesLeaveDAndRepeat := by
  unfold Obligations.QueriesLeaveDAndRepeat
  rintro s ⟨rst, c⟩ rest hport hrst hop
  obtain rfl : rst = false := hrst
  obtain ⟨s₁, -, hstep₁, -⟩ := stepDependsOnDAndTheCommandAlone s s c _ _ hport hport (.inl rfl)
  obtain ⟨hport₁, hd₁⟩ := step_query_port_d hport rfl hop hstep₁
  obtain ⟨u, s₂, hu, hstep₂, hd, hresponse⟩ :=
    stepDependsOnDAndTheCommandAlone s s₁ c _ _ hport hport₁ (.inl hd₁.symm)
  obtain rfl : s₁ = u := Host.Outcome.next.inj (hstep₁.symm.trans hu)
  exact ⟨s₁, s₂, hstep₁, hstep₂, hd₁, hd.symm.trans hd₁, hresponse.symm⟩

end Sys2Proof.Machine
end

section
/-! SUPPORT. The opcode map read both ways (30_encoding.md R58, R60). -/

namespace Sys2Proof.Machine

open Laws

/-- The opcode map holds every instruction's own row, whose constructor rebuilds the instruction (R60). -/
theorem opcodeRows_lookup_opcode : (i : Instr) → OwnOpcode.Statement i
  | .dec arg => OwnOpcode.dec arg
  | .enc arg => OwnOpcode.enc arg
  | .getLimit arg => OwnOpcode.getLimit arg
  | .getBase arg => OwnOpcode.getBase arg
  | .getType arg => OwnOpcode.getType arg
  | .getRing arg => OwnOpcode.getRing arg
  | .getPresent arg => OwnOpcode.getPresent arg
  | .getAvl arg => OwnOpcode.getAvl arg
  | .getUse32 arg => OwnOpcode.getUse32 arg
  | .getUse64 arg => OwnOpcode.getUse64 arg
  | .getPgran arg => OwnOpcode.getPgran arg
  | .setLimit arg => OwnOpcode.setLimit arg
  | .setBase arg => OwnOpcode.setBase arg
  | .setType arg => OwnOpcode.setType arg
  | .setRing arg => OwnOpcode.setRing arg
  | .setPresent arg => OwnOpcode.setPresent arg
  | .setAvl arg => OwnOpcode.setAvl arg
  | .setUse32 arg => OwnOpcode.setUse32 arg
  | .setUse64 arg => OwnOpcode.setUse64 arg
  | .setPgran arg => OwnOpcode.setPgran arg
  | .classify arg => OwnOpcode.classify arg
  | .attrs arg => OwnOpcode.attrs arg
  | .isxd arg => OwnOpcode.isxd arg
  | .csize arg => OwnOpcode.csize arg
  | .chgtype arg => OwnOpcode.chgtype arg
  | .clrrsv arg => OwnOpcode.clrrsv arg
  | .notes arg => OwnOpcode.notes arg
  | .bndOvf arg => OwnOpcode.bndOvf arg
  | .bndSize arg => OwnOpcode.bndSize arg
  | .bndImin arg => OwnOpcode.bndImin arg
  | .bndImax arg => OwnOpcode.bndImax arg
  | .bndLmin arg => OwnOpcode.bndLmin arg
  | .bndLmax arg => OwnOpcode.bndLmax arg

/-- A command whose opcode has a row decodes to that row's instruction (R60). -/
theorem decodeCommand_of_lookup {c : Command} {row : Word → Instr} (h : opcodeRows.lookup c.op = some row) :
    decodeCommand c = .ok (row c.arg) := by
  rw [decodeCommand, h]

/-- A command whose opcode has no row is refused by name (R66). -/
theorem decodeCommand_of_lookup_none {c : Command} (h : opcodeRows.lookup c.op = none) :
    decodeCommand c = .error (.reservedOpcode c.op) := by
  rw [decodeCommand, h]

/-- An instruction is read back from its command. -/
theorem decodeCommand_encodeCommand (i : Instr) : decodeCommand (encodeCommand i) = .ok i := by
  obtain ⟨row, hlookup, hrow⟩ := opcodeRows_lookup_opcode i
  rw [decodeCommand_of_lookup (c := encodeCommand i) hlookup, encodeCommand, hrow]

/-- Settles O1: a command word gives its command back, and the opcode map the instruction of that command. -/
theorem decodeInvertsEncode : Obligations.DecodeInvertsEncode := by
  unfold Obligations.DecodeInvertsEncode
  intro i
  rw [decode, encode, Command.ofWord_toWord, decodeCommand_encodeCommand]

/-- Settles O2: a command decodes to no instruction but the one it encodes, and a word is its command's. -/
theorem encodeInvertsDecode : Obligations.EncodeInvertsDecode := by
  unfold Obligations.EncodeInvertsDecode
  intro w i hdecode
  rw [encode, encodeCommand_of_decode_ok hdecode, Command.toWord_ofWord]

/-- Settles O3: seven fixed words, decoded. -/
theorem wordsOfTheOpcodeMapDecode : Obligations.WordsOfTheOpcodeMapDecode := by
  unfold Obligations.WordsOfTheOpcodeMapDecode
  decide

end Sys2Proof.Machine
end

section
/-! SUPPORT. Defined and reserved opcodes (30_encoding.md R60, R66). -/

namespace Sys2Proof.Machine

/-- The opcodes without a row are the reserved ones of R66. -/
theorem opcodeRows_lookup_isSome : ∀ op : Opcode, (opcodeRows.lookup op).isSome = !isReserved op := by
  decide

/-- The check by groups refuses the reserved opcodes of R66. -/
theorem wellFormed_eq_not_isReserved (c : Command) : c.wellFormed = !isReserved c.op := by
  have hop : ∀ op : Opcode, Command.wellFormed ⟨op, 0⟩ = !isReserved op := by decide
  exact hop c.op

/-- A defined opcode decodes, with any operand. -/
theorem decodeCommand_of_not_isReserved {c : Command} (h : isReserved c.op = false) : ∃ i, decodeCommand c = .ok i := by
  have hsome : (opcodeRows.lookup c.op).isSome = true := by rw [opcodeRows_lookup_isSome, h]; rfl
  obtain ⟨row, hrow⟩ := Option.isSome_iff_exists.mp hsome
  exact ⟨_, decodeCommand_of_lookup hrow⟩

/-- A reserved opcode is refused by name, with any operand. -/
theorem decodeCommand_of_isReserved {c : Command} (h : isReserved c.op = true) :
    decodeCommand c = .error (.reservedOpcode c.op) := by
  apply decodeCommand_of_lookup_none
  rw [← Option.not_isSome_iff_eq_none, opcodeRows_lookup_isSome, h]
  decide

/-- Settles O4: an opcode is reserved or it is not, and each case decides the decoder's answer and the check's. -/
theorem commandsAreDefinedOrReserved : Obligations.CommandsAreDefinedOrReserved := by
  unfold Obligations.CommandsAreDefinedOrReserved
  intro c
  rw [wellFormed_eq_not_isReserved]
  cases h : isReserved c.op with
  | true => simp [decodeCommand_of_isReserved h]
  | false =>
    obtain ⟨i, hi⟩ := decodeCommand_of_not_isReserved h
    simp [hi]

/-- Settles O5: a reserved opcode gets the error response, and a defined one runs an instruction, which completes. -/
theorem reservedOpcodeAnswersAnError : Obligations.ReservedOpcodeAnswersAnError := by
  unfold Obligations.ReservedOpcodeAnswersAnError
  intro s c
  rw [step_present]
  constructor
  · intro h
    exact runCommand_of_decode_error (decodeCommand_of_isReserved h) s
  · intro h
    obtain ⟨i, hi⟩ := decodeCommand_of_not_isReserved h
    obtain ⟨d, data, hdone⟩ := exec_completes i s
    rw [runCommand_of_decode_ok hi]
    exact ⟨_, hdone, rfl⟩

end Sys2Proof.Machine
end

section
/-! SUPPORT. Operands that agree in the bits a command uses (30_encoding.md R59). -/

namespace Sys2Proof.Machine

variable {a b : Word}

/-- Two operands that agree in the bits an opcode uses (R59). -/
def AgreeFor (op : Opcode) (a b : Word) : Prop := a.toNat % 2 ^ operandBits op = b.toNat % 2 ^ operandBits op

/-- A `SET` command takes from the operand the bits of its field (40_codec.md R71). -/
theorem mutate_set_congr (s : State) (f : Field) (h : AgreeFor f.setOpcode a b) :
    mutate (·.set f a) s = mutate (·.set f b) s := by
  simp only [mutate, Descriptor.set]
  cases f with
  | limit => rw [argLow_congr (n := 20) h]
  | base => rw [argLow_congr (n := 32) h]
  | type => rw [argLow_congr (n := 5) h]
  | ring => rw [argLow_congr (n := 2) h]
  | _ => rw [argBit_congr h]

/-- `CHGTYPE` takes from the operand the two bits that code its target (42_transitions.md R107). -/
theorem execChgtype_congr (s : State) (h : AgreeFor 0x34#6 a b) : execChgtype a s = execChgtype b s := by
  rw [execChgtype, execChgtype, chgtypeUnder, chgtypeUnder, argTarget, argTarget, argLow_congr (n := 2) h]

/-- An instruction does the same with another operand that agrees in the bits it uses (R59): `DEC`, a `SET` and
`CHGTYPE` read those bits alone, every other instruction none. -/
theorem exec_eq_of_agreeFor (s : State) {i : Instr} {row : Word → Instr} (hrow : opcodeRows.lookup i.opcode = some row)
    (h : AgreeFor i.opcode i.arg b) : exec i s = exec (row b) s := by
  cases i with
  | dec arg =>
    cases hrow
    rw [show arg = b by simpa [argLow, Instr.arg] using argLow_congr (n := 64) h]
  | setLimit arg => cases hrow; exact mutate_set_congr s .limit h
  | setBase arg => cases hrow; exact mutate_set_congr s .base h
  | setType arg => cases hrow; exact mutate_set_congr s .type h
  | setRing arg => cases hrow; exact mutate_set_congr s .ring h
  | setPresent arg => cases hrow; exact mutate_set_congr s .present h
  | setAvl arg => cases hrow; exact mutate_set_congr s .avlBit h
  | setUse32 arg => cases hrow; exact mutate_set_congr s .use32 h
  | setUse64 arg => cases hrow; exact mutate_set_congr s .use64 h
  | setPgran arg => cases hrow; exact mutate_set_congr s .pageGranularity h
  | chgtype arg => cases hrow; exact execChgtype_congr s h
  | _ => cases hrow; rfl

end Sys2Proof.Machine
end

section
namespace Sys2Proof.Machine

/-- Settles O7: a defined opcode runs one instruction with either operand, and a reserved one does not look at it. -/
theorem ignoredOperandBitsChangeNothing : Obligations.IgnoredOperandBitsChangeNothing := by
  unfold Obligations.IgnoredOperandBitsChangeNothing
  intro s op a b h
  rw [step_present, step_present]
  cases hlookup : opcodeRows.lookup op with
  | none =>
    rw [runCommand_of_decode_error (decodeCommand_of_lookup_none hlookup),
      runCommand_of_decode_error (decodeCommand_of_lookup_none hlookup)]
  | some row =>
    obtain ⟨hop, harg⟩ := opcodeRows_opcode_arg a _ (mem_of_lookup hlookup)
    rw [runCommand_of_decode_ok (decodeCommand_of_lookup hlookup),
      runCommand_of_decode_ok (decodeCommand_of_lookup hlookup)]
    apply exec_eq_of_agreeFor
    · rw [hop, hlookup]
    · rw [hop, harg]
      exact h

end Sys2Proof.Machine
end

section
/-! SUPPORT. The packed word as a number (30_encoding.md R50 to R54). -/

namespace Sys2Proof.Machine

/-- The number of two bit vectors side by side. -/
theorem toNat_append_eq_add {m n : Nat} (x : BitVec m) (y : BitVec n) : (x ++ y).toNat = x.toNat * 2 ^ n + y.toNat := by
  rw [BitVec.toNat_append, ← Nat.shiftLeft_add_eq_or_of_lt y.isLt, Nat.shiftLeft_eq]

theorem toNat_append_mod {m n : Nat} (x : BitVec m) (y : BitVec n) : (x ++ y).toNat % 2 ^ n = y.toNat := by
  rw [toNat_append_eq_add, Nat.mul_add_mod_self_right, Nat.mod_eq_of_lt y.isLt]

theorem toNat_append_div {m n : Nat} (x : BitVec m) (y : BitVec n) : (x ++ y).toNat / 2 ^ n = x.toNat := by
  rw [toNat_append_eq_add, Nat.add_comm, Nat.add_mul_div_right _ _ (by positivity), Nat.div_eq_of_lt y.isLt,
    Nat.zero_add]

/-- The number of a slice. -/
theorem toNat_slice {n : Nat} (v : BitVec n) (k w : Nat) : (v.extractLsb' k w).toNat = v.toNat / 2 ^ k % 2 ^ w := by
  rw [BitVec.extractLsb'_toNat, Nat.shiftRight_eq_div_pow]

/-- The number of a bit. -/
theorem toNat_bit {n : Nat} (v : BitVec n) (k : Nat) : (v.getLsbD k).toNat = v.toNat / 2 ^ k % 2 :=
  Nat.toNat_testBit v.toNat k

/-- Above bit 56 a word has eight bits. -/
theorem toNat_div_two_pow_56_mod (v : Word) : v.toNat / 2 ^ 56 % 2 ^ 8 = v.toNat / 2 ^ 56 :=
  Nat.mod_eq_of_lt (Nat.div_lt_of_lt_mul v.isLt)

/-- The number of each field of an unpacked word, from its place or its two places (R50, R51, R52). -/
theorem Descriptor.decode_toNat (v : Word) :
    (Descriptor.decode v).limit.toNat = v.toNat / 2 ^ 48 % 2 ^ 4 * 2 ^ 16 + v.toNat % 2 ^ 16 ∧
    (Descriptor.decode v).base.toNat = v.toNat / 2 ^ 56 * 2 ^ 24 + v.toNat / 2 ^ 16 % 2 ^ 24 ∧
    (Descriptor.decode v).type.toNat = v.toNat / 2 ^ 40 % 2 ^ 5 ∧
    (Descriptor.decode v).ring.toNat = v.toNat / 2 ^ 45 % 2 ^ 2 ∧
    (Descriptor.decode v).present.toNat = v.toNat / 2 ^ 47 % 2 ∧
    (Descriptor.decode v).avlBit.toNat = v.toNat / 2 ^ 52 % 2 ∧
    (Descriptor.decode v).use64.toNat = v.toNat / 2 ^ 53 % 2 ∧
    (Descriptor.decode v).use32.toNat = v.toNat / 2 ^ 54 % 2 ∧
    (Descriptor.decode v).pageGranularity.toNat = v.toNat / 2 ^ 55 % 2 := by
  simp only [Descriptor.decode, toNat_append_eq_add, toNat_slice, toNat_bit, toNat_div_two_pow_56_mod,
    pow_zero, Nat.div_one, and_self]

/-- The two pieces of `limit` and of `base` in a word (R51). -/
theorem Descriptor.decode_pieces (v : Word) :
    (Descriptor.decode v).limit.toNat % 2 ^ 16 = v.toNat % 2 ^ 16 ∧
    (Descriptor.decode v).limit.toNat / 2 ^ 16 = v.toNat / 2 ^ 48 % 2 ^ 4 ∧
    (Descriptor.decode v).base.toNat % 2 ^ 24 = v.toNat / 2 ^ 16 % 2 ^ 24 ∧
    (Descriptor.decode v).base.toNat / 2 ^ 24 = v.toNat / 2 ^ 56 := by
  refine ⟨?_, ?_, ?_, ?_⟩
  · rw [Descriptor.decode, toNat_append_mod, toNat_slice, pow_zero, Nat.div_one]
  · rw [Descriptor.decode, toNat_append_div, toNat_slice]
  · rw [Descriptor.decode, toNat_append_mod, toNat_slice]
  · rw [Descriptor.decode, toNat_append_div, toNat_slice, toNat_div_two_pow_56_mod]

/-- The word `w` holds the number `x` in its low `k` bits and nothing above. -/
def HoldsBelow (w : Word) (k x : Nat) : Prop := w.toNat = x ∧ x < 2 ^ k

/-- A piece holds its value, cut to the piece's width. -/
theorem piece_toNat (n : Nat) {m : Nat} (v : BitVec m) {k : Nat} (h : k + n ≤ 64) :
    (piece n v k).toNat = v.toNat % 2 ^ n * 2 ^ k := by
  have hlt : v.toNat % 2 ^ n * 2 ^ k < 2 ^ 64 := calc
    v.toNat % 2 ^ n * 2 ^ k < 2 ^ n * 2 ^ k :=
      Nat.mul_lt_mul_of_pos_right (Nat.mod_lt _ (by positivity)) (by positivity)
    _ = 2 ^ (k + n) := by rw [Nat.add_comm, pow_add]
    _ ≤ 2 ^ 64 := Nat.pow_le_pow_right (by decide) h
  have hlow : v.toNat % 2 ^ n < 2 ^ 64 := lt_of_le_of_lt (Nat.le_mul_of_pos_right _ (by positivity)) hlt
  rw [piece, BitVec.toNat_shiftLeft, BitVec.toNat_setWidth, BitVec.toNat_setWidth, Nat.mod_eq_of_lt hlow,
    Nat.shiftLeft_eq, Nat.mod_eq_of_lt hlt]

/-- A piece placed above all that a word holds is added to it (R53). -/
theorem HoldsBelow.or_piece {w : Word} {k x : Nat} (hw : HoldsBelow w k x) {n m : Nat} (v : BitVec m) (h : k + n ≤ 64) :
    HoldsBelow (w ||| piece n v k) (k + n) (x + v.toNat % 2 ^ n * 2 ^ k) := by
  obtain ⟨rfl, hlt⟩ := hw
  constructor
  · rw [BitVec.toNat_or, piece_toNat n v h, Nat.or_comm, ← Nat.shiftLeft_eq, ← Nat.shiftLeft_add_eq_or_of_lt hlt,
      Nat.add_comm]
  · have hmod : v.toNat % 2 ^ n + 1 ≤ 2 ^ n := Nat.mod_lt _ (by positivity)
    calc w.toNat + v.toNat % 2 ^ n * 2 ^ k < 2 ^ k + v.toNat % 2 ^ n * 2 ^ k := Nat.add_lt_add_right hlt _
      _ = (v.toNat % 2 ^ n + 1) * 2 ^ k := by ring
      _ ≤ 2 ^ n * 2 ^ k := Nat.mul_le_mul_right _ hmod
      _ = 2 ^ (k + n) := by rw [Nat.add_comm, pow_add]

/-- The number of a packed word: the eleven pieces of R53, each at its place. -/
theorem Descriptor.encode_toNat (d : Descriptor) :
    d.encode.toNat =
      d.limit.toNat % 2 ^ 16
      + d.base.toNat % 2 ^ 24 * 2 ^ 16
      + d.type.toNat * 2 ^ 40
      + d.ring.toNat * 2 ^ 45
      + d.present.toNat * 2 ^ 47
      + d.limit.toNat / 2 ^ 16 * 2 ^ 48
      + d.avlBit.toNat * 2 ^ 52
      + d.use64.toNat * 2 ^ 53
      + d.use32.toNat * 2 ^ 54
      + d.pageGranularity.toNat * 2 ^ 55
      + d.base.toNat / 2 ^ 24 * 2 ^ 56 := by
  have hlimitLow : HoldsBelow (piece 16 d.limit 0) 16 (d.limit.toNat % 2 ^ 16) :=
    ⟨by rw [piece_toNat _ _ (by decide), pow_zero, mul_one], Nat.mod_lt _ (by decide)⟩
  have hencode : HoldsBelow d.encode 64 _ := hlimitLow
    |>.or_piece (n := 24) d.base (by decide)
    |>.or_piece (n := 5) d.type (by decide)
    |>.or_piece (n := 2) d.ring (by decide)
    |>.or_piece (n := 1) (BitVec.ofBool d.present) (by decide)
    |>.or_piece (n := 4) (d.limit >>> 16) (by decide)
    |>.or_piece (n := 1) (BitVec.ofBool d.avlBit) (by decide)
    |>.or_piece (n := 1) (BitVec.ofBool d.use64) (by decide)
    |>.or_piece (n := 1) (BitVec.ofBool d.use32) (by decide)
    |>.or_piece (n := 1) (BitVec.ofBool d.pageGranularity) (by decide)
    |>.or_piece (n := 8) (d.base >>> 24) (by decide)
  obtain ⟨hsum, -⟩ := hencode
  have hlimit : d.limit.toNat / 2 ^ 16 % 2 ^ 4 = d.limit.toNat / 2 ^ 16 :=
    Nat.mod_eq_of_lt (Nat.div_lt_of_lt_mul d.limit.isLt)
  have hbase : d.base.toNat / 2 ^ 24 % 2 ^ 8 = d.base.toNat / 2 ^ 24 :=
    Nat.mod_eq_of_lt (Nat.div_lt_of_lt_mul d.base.isLt)
  have hbit (b : Bool) : b.toNat % 2 ^ 1 = b.toNat := by cases b <;> rfl
  simpa only [BitVec.toNat_ushiftRight, Nat.shiftRight_eq_div_pow, BitVec.toNat_ofBool, BitVec.toNat_mod_cancel, hlimit,
    hbase, hbit, Nat.reduceAdd] using hsum

/-- Packing inverts unpacking (R54): the pieces are the sixty-four bits of the word. -/
theorem Descriptor.encode_decode (v : Word) : (Descriptor.decode v).encode = v := by
  have hjoin (k n : Nat) : v.toNat % 2 ^ k + v.toNat / 2 ^ k % 2 ^ n * 2 ^ k = v.toNat % 2 ^ (k + n) := by
    rw [pow_add, Nat.mod_mul, Nat.mul_comm (2 ^ k)]
  have hjoinBit (k : Nat) : v.toNat % 2 ^ k + v.toNat / 2 ^ k % 2 * 2 ^ k = v.toNat % 2 ^ (k + 1) := hjoin k 1
  obtain ⟨-, -, htype, hring, hpresent, havlBit, huse64, huse32, hpageGranularity⟩ := Descriptor.decode_toNat v
  obtain ⟨hlimitLow, hlimitHigh, hbaseLow, hbaseHigh⟩ := Descriptor.decode_pieces v
  apply BitVec.eq_of_toNat_eq
  rw [Descriptor.encode_toNat, hlimitLow, hlimitHigh, hbaseLow, hbaseHigh, htype, hring, hpresent, havlBit, huse64,
    huse32, hpageGranularity]
  simp only [hjoin, hjoinBit, Nat.reduceAdd]
  exact Nat.mod_add_div' v.toNat (2 ^ 56)

/-- A query answers its function of `D` (20_memory.md R44). -/
theorem query_answers (f : Descriptor → Word) (s : State) : Answers (query f s) s (f s.d) := rfl

/-- Settles O8: packing inverts unpacking. -/
theorem packedWordRoundTrip : Obligations.PackedWordRoundTrip :=
  Descriptor.encode_decode

/-- Settles O9: unpacking inverts packing. -/
theorem fieldRoundTrip : Obligations.FieldRoundTrip :=
  Descriptor.decode_encode

/-- Settles O10: `DEC` loads the unpacked operand, and packing it again gives the operand. -/
theorem decLoadsEveryField : Obligations.DecLoadsEveryField := by
  unfold Obligations.DecLoadsEveryField
  intro s arg b
  obtain ⟨hlimit, hbase, htype, hring, hpresent, havlBit, huse64, huse32, hpageGranularity⟩ :=
    Descriptor.decode_toNat arg
  refine ⟨Descriptor.decode arg, exec_dec_completes arg s, hlimit, hbase, htype, hring, hpresent, havlBit, huse64,
    huse32, hpageGranularity, ?_⟩
  intro s' hdec
  have hd : s'.d = Descriptor.decode arg := by cases hdec; rfl
  have henc : Answers (exec (.enc b) s') s' s'.d.encode := query_answers Descriptor.encode s'
  rwa [hd, Descriptor.encode_decode] at henc

/-- Settles O11: `ENC` answers the packed word, whose number is the sum of the pieces. -/
theorem encAnswersThePackedWord : Obligations.EncAnswersThePackedWord := by
  unfold Obligations.EncAnswersThePackedWord
  intro s arg
  exact ⟨s.d.encode, query_answers Descriptor.encode s, s.d.encode_toNat⟩

end Sys2Proof.Machine
end

section
/-! SUPPORT. Class, attributes and code size by the number of the type (41_classify.md R90 to R93). -/

namespace Sys2Proof.Machine

/-- Bit 4 of a type says whether it is one of 16 to 31. -/
theorem type_bit_four : ∀ t : BitVec 5, t.getLsbD 4 = decide (16 ≤ t.toNat) := by decide

/-- Bit 3 of a type from 16 says whether it is one of 24 to 31. -/
theorem type_bit_three : ∀ t : BitVec 5, t.getLsbD 4 = true → t.getLsbD 3 = decide (24 ≤ t.toNat) := by decide

/-- The class in terms of `present` and the number of the type (R90). -/
theorem Descriptor.classify_type_cases (d : Descriptor) :
    (d.present = false ∧ d.classify = .notPresent) ∨
    (d.present = true ∧ d.type.toNat < 16 ∧ d.classify = .system) ∨
    (d.present = true ∧ ¬ d.type.toNat < 16 ∧ d.type.toNat < 24 ∧ d.classify = .data) ∨
    (d.present = true ∧ ¬ d.type.toNat < 16 ∧ ¬ d.type.toNat < 24 ∧ d.classify = .code) := by
  obtain hnp | ⟨hp, hfour, hclass⟩ | ⟨hp, hfour, hthree, hclass⟩ | ⟨hp, hfour, hthree, hclass⟩ := d.classify_cases
  · exact .inl hnp
  · rw [type_bit_four, decide_eq_false_iff_not, not_le] at hfour
    exact .inr (.inl ⟨hp, hfour, hclass⟩)
  · rw [type_bit_three _ hfour, decide_eq_true_iff] at hthree
    exact .inr (.inr (.inr ⟨hp, by omega, by omega, hclass⟩))
  · rw [type_bit_three _ hfour, decide_eq_false_iff_not, not_le] at hthree
    rw [type_bit_four, decide_eq_true_iff] at hfour
    exact .inr (.inr (.inl ⟨hp, by omega, hthree, hclass⟩))

/-- The number of the word of R62: the tag's code, and the payload from bit 4. -/
theorem Attributes.word_toNat (a : Attributes) : a.word.toNat = (code2 a.tag).toNat + 16 * a.payload.toNat := by
  simp only [Attributes.word, toNat_append_eq_add, BitVec.toNat_ofNat]
  omega

/-- The low three bits of a number, each by itself. -/
theorem low_three_bits_eq_mod_eight (n : Nat) :
    (n.testBit 0).toNat + 2 * (n.testBit 1).toNat + 4 * (n.testBit 2).toNat = n % 8 := by
  simp only [Nat.toNat_testBit]
  omega

/-- The three bits of code and of data fill the payload from its lowest bit (R62). -/
theorem Attributes.payload_toNat : ∀ a b c : Bool,
    (Attributes.code a b c).payload.toNat = a.toNat + 2 * b.toNat + 4 * c.toNat ∧
    (Attributes.data a b c).payload.toNat = a.toNat + 2 * b.toNat + 4 * c.toNat := by
  decide

/-- The attributes in terms of `present` and the number of the type (R91). -/
theorem Descriptor.attributesOf_eq (d : Descriptor) :
    d.attributesOf =
      if d.present = false then .notPresent
      else if d.type.toNat < 16 then .system (BitVec.ofNat 4 d.type.toNat)
      else if d.type.toNat < 24 then
        .data (d.type.toNat.testBit 0) (d.type.toNat.testBit 1) (d.type.toNat.testBit 2)
      else .code (d.type.toNat.testBit 0) (d.type.toNat.testBit 1) (d.type.toNat.testBit 2) := by
  unfold Descriptor.attributesOf
  obtain ⟨hp, hclass⟩ | ⟨hp, hn, hclass⟩ | ⟨hp, hge, hlt, hclass⟩ | ⟨hp, hge, hge', hclass⟩ := d.classify_type_cases
  · rw [hclass, if_pos hp]
  · rw [hclass, if_neg (by simp [hp]), if_pos hn]; rfl
  · rw [hclass, if_neg (by simp [hp]), if_neg hge, if_pos hlt]; rfl
  · rw [hclass, if_neg (by simp [hp]), if_neg hge, if_neg hge']; rfl

/-- The code size of each class by the two flags (R93), as a response (30_encoding.md R63). -/
theorem Descriptor.codeSizeWord_codeSize (d : Descriptor) :
    codeSizeWord d.codeSize =
      match d.classify with
      | .notPresent | .system => 0
      | .code => if d.use64 then (if d.use32 then 0 else 64) else if d.use32 then 32 else 16
      | .data => if d.use64 then 0 else if d.use32 then 32 else 16 := by
  unfold Descriptor.codeSize
  cases d.classify with
  | notPresent => rfl
  | system => rfl
  | code => cases d.use64 <;> cases d.use32 <;> rfl
  | data => cases d.use64 <;> cases d.use32 <;> rfl

/-- The response 0 stands for `null` alone (R63). -/
theorem codeSizeWord_eq_zero_iff (size : Option CodeSize) : codeSizeWord size = 0 ↔ size = none := by
  cases size with
  | none => exact iff_of_true rfl rfl
  | some size => cases size <;> exact iff_of_false (by decide) (by decide)

/-- Settles O14: each class answers its code, 0 to 3. -/
theorem classifyAnswersTheClassCode : Obligations.ClassifyAnswersTheClassCode := by
  unfold Obligations.ClassifyAnswersTheClassCode
  intro s arg
  have hanswer : Answers (exec (.classify arg) s) s ((code2 s.d.classify).setWidth 64) :=
    query_answers (fun d => (code2 d.classify).setWidth 64) s
  obtain ⟨hp, hclass⟩ | ⟨hp, hn, hclass⟩ | ⟨hp, hge, hlt, hclass⟩ | ⟨hp, hge, hge', hclass⟩ := s.d.classify_type_cases
  · simpa [code2, hp, hclass] using hanswer
  · simpa [code2, hp, hn, hclass] using hanswer
  · simpa [code2, hp, hge, hlt, hclass] using hanswer
  · simpa [code2, hp, hge, hge', hclass] using hanswer

/-- Settles O16: the word is the tag's code with the payload from bit 4, for the variant of each class. -/
theorem attrsAnswersTheAttributeWord : Obligations.AttrsAnswersTheAttributeWord := by
  unfold Obligations.AttrsAnswersTheAttributeWord
  intro s arg n
  refine ⟨s.d.attributesOf_eq, s.d.attributesOf.word, query_answers (fun d => d.attributesOf.word) s, ?_⟩
  rw [Attributes.word_toNat, s.d.attributesOf_eq]
  split_ifs with hp hsystem hdata
  · rfl
  · have hsubtype : n % 16 = n := Nat.mod_eq_of_lt hsystem
    simp [Attributes.tag, Attributes.payload, code2, hsubtype, n]
  · rw [(Attributes.payload_toNat _ _ _).2, low_three_bits_eq_mod_eight]; rfl
  · rw [(Attributes.payload_toNat _ _ _).1, low_three_bits_eq_mod_eight]; rfl

/-- Settles O18: the size of each class by the flags, and its response. -/
theorem csizeAnswersTheCodeSize : Obligations.CsizeAnswersTheCodeSize := by
  unfold Obligations.CsizeAnswersTheCodeSize
  intro s arg n size
  have hanswer : Answers (exec (.csize arg) s) s (codeSizeWord s.d.codeSize) :=
    query_answers (fun d => codeSizeWord d.codeSize) s
  have hsize : codeSizeWord s.d.codeSize = size := by
    rw [Descriptor.codeSizeWord_codeSize]
    obtain ⟨hp, hclass⟩ | ⟨-, hn, hclass⟩ | ⟨hp, hge, hlt, hclass⟩ | ⟨hp, hge, hge', hclass⟩ :=
      s.d.classify_type_cases
    · simp [size, hp, hclass]
    · simp [size, n, hn, hclass]
    · simp [size, n, hp, hge, hlt, hclass]
    · simp [size, n, hp, hge, hge', hclass]
  rw [← hsize]
  exact ⟨hanswer, (codeSizeWord_eq_zero_iff _).symm⟩

end Sys2Proof.Machine
end

section
/-! SUPPORT. The notes word (30_encoding.md R64). -/

namespace Sys2Proof.Machine

/-- The number of the notes word: the two presence bits, the compat bit and the level. -/
theorem notesWord_toNat (n : List Tag) :
    (notesWord n).toNat =
      (decide (.reserved ∈ n)).toNat + 2 * (decide (.invalid ∈ n)).toNat + 4 * (notesCompat n).toNat
        + 8 * (notesLevel n).toNat := by
  simp only [notesWord, toNat_append_eq_add, BitVec.toNat_ofBool, BitVec.toNat_ofNat]
  ring

/-- The compat bit and the level together, by the greatest level that is noted. -/
theorem notesCompat_level (n : List Tag) :
    4 * (notesCompat n).toNat + 8 * (notesLevel n).toNat =
      if Tag.compatX8664 ∈ n then 4 + 16
      else if Tag.compat386 ∈ n then 4 + 8
      else if Tag.compat286 ∈ n then 4
      else 0 := by
  unfold notesCompat notesLevel
  split_ifs with h64 h386 h286 <;> simp [*]

/-- Settles O27: each presence bit is 1 or 0, and the rest is the compat part. -/
theorem notesAnswersTheNotesWord : Obligations.NotesAnswersTheNotesWord := by
  unfold Obligations.NotesAnswersTheNotesWord
  intro s arg n
  refine ⟨notesWord n, query_answers (fun d => notesWord d.configurationNotes) s, ?_⟩
  rw [notesWord_toNat, Nat.add_assoc, notesCompat_level]
  congr 2
  · by_cases h : Tag.reserved ∈ n <;> simp [h]
  · by_cases h : Tag.invalid ∈ n <;> simp [h]

end Sys2Proof.Machine
end

section
/-! SUPPORT. The bytes of a packed descriptor (20_memory.md R42). -/

namespace Sys2Proof.Machine

/-- Bit `i` of the word a host reads is bit `i % 8` of byte `i / 8`. -/
theorem bytesWord_getLsbD (bs : List Byte) {i : Nat} (hi : i < 64) :
    (bytesWord bs).getLsbD i = (bs.getD (i / 8) 0).getLsbD (i % 8) := by
  induction bs generalizing i with
  | nil => simp [bytesWord]
  | cons b bs ih =>
    rw [bytesWord, BitVec.getLsbD_or, BitVec.getLsbD_shiftLeft, BitVec.getLsbD_setWidth]
    by_cases hlow : i < 8
    · simp [hi, hlow, Nat.div_eq_of_lt, Nat.mod_eq_of_lt]
    · have hdiv : i / 8 = (i - 8) / 8 + 1 := by omega
      have hmod : i % 8 = (i - 8) % 8 := by omega
      have habove : b.getLsbD i = false := BitVec.getLsbD_of_ge b i (by omega)
      rw [ih (by omega), hdiv, hmod, habove, List.getD_cons_succ]
      simp [hi, hlow]

/-- Reading back the bytes of a word gives the word (R42). -/
theorem bytesWord_wordBytes (v : Word) : bytesWord (wordBytes v) = v := by
  apply BitVec.eq_of_getLsbD_eq
  intro i hi
  have hbyte : (wordBytes v).getD (i / 8) 0 = v.extractLsb' (8 * (i / 8)) 8 := by
    have hlen : i / 8 < 8 := by omega
    simp [wordBytes, hlen]
  have hmod : i % 8 < 8 := Nat.mod_lt _ (by decide)
  rw [bytesWord_getLsbD _ hi, hbyte, BitVec.getLsbD_extractLsb', Nat.div_add_mod]
  simp [hmod]

/-- The numbers of the eight bytes, byte 0 first. -/
theorem wordBytes_toNat (v : Word) :
    (wordBytes v).map (·.toNat) =
      [v.toNat % 2 ^ 8, v.toNat / 2 ^ 8 % 2 ^ 8, v.toNat / 2 ^ 16 % 2 ^ 8, v.toNat / 2 ^ 24 % 2 ^ 8,
       v.toNat / 2 ^ 32 % 2 ^ 8, v.toNat / 2 ^ 40 % 2 ^ 8, v.toNat / 2 ^ 48 % 2 ^ 8, v.toNat / 2 ^ 56 % 2 ^ 8] := by
  simp [wordBytes, List.range_succ, Nat.shiftRight_eq_div_pow]

/-- Byte 5 is `present`, `ring` and `type`. -/
theorem byte_of_present_ring_type (x : Nat) :
    x / 2 ^ 40 % 2 ^ 8 = x / 2 ^ 47 % 2 * 2 ^ 7 + x / 2 ^ 45 % 2 ^ 2 * 2 ^ 5 + x / 2 ^ 40 % 2 ^ 5 := by
  omega

/-- Byte 6 is the four flags and the high part of `limit`. -/
theorem byte_of_flags_limit (x : Nat) :
    x / 2 ^ 48 % 2 ^ 8 =
      x / 2 ^ 55 % 2 * 2 ^ 7 + x / 2 ^ 54 % 2 * 2 ^ 6 + x / 2 ^ 53 % 2 * 2 ^ 5 + x / 2 ^ 52 % 2 * 2 ^ 4
        + x / 2 ^ 48 % 2 ^ 4 := by
  omega

/-- Bytes 0 and 1 are the low piece of `limit`. -/
theorem bytes_of_limit {x l : Nat} (h : l % 2 ^ 16 = x % 2 ^ 16) :
    x % 2 ^ 8 = l % 2 ^ 8 ∧ x / 2 ^ 8 % 2 ^ 8 = l / 2 ^ 8 % 2 ^ 8 := by
  omega

/-- Bytes 2 to 4 are the low piece of `base`. -/
theorem bytes_of_base {x b : Nat} (h : b % 2 ^ 24 = x / 2 ^ 16 % 2 ^ 24) :
    x / 2 ^ 16 % 2 ^ 8 = b % 2 ^ 8 ∧ x / 2 ^ 24 % 2 ^ 8 = b / 2 ^ 8 % 2 ^ 8 ∧
      x / 2 ^ 32 % 2 ^ 8 = b / 2 ^ 16 % 2 ^ 8 := by
  omega

/-- Settles O48: each byte is its slice of the word, and the slice is the field's or the fields' (R50). -/
theorem serialisedBytesAreLittleEndian : Obligations.SerialisedBytesAreLittleEndian := by
  unfold Obligations.SerialisedBytesAreLittleEndian
  intro v
  refine ⟨bytesWord_wordBytes v, ?_⟩
  obtain ⟨hlimitLow, hlimitHigh, hbaseLow, hbaseHigh⟩ := Descriptor.decode_pieces v
  obtain ⟨hlimit0, hlimit1⟩ := bytes_of_limit hlimitLow
  obtain ⟨hbase0, hbase1, hbase2⟩ := bytes_of_base hbaseLow
  obtain ⟨-, -, htype, hring, hpresent, havlBit, huse64, huse32, hpageGranularity⟩ := Descriptor.decode_toNat v
  rw [wordBytes_toNat, byte_of_present_ring_type, byte_of_flags_limit, toNat_div_two_pow_56_mod, hlimit0, hlimit1,
    hbase0, hbase1, hbase2, htype, hring, hpresent, havlBit, huse64, huse32, hpageGranularity, hlimitHigh, hbaseHigh]

end Sys2Proof.Machine
end

section
/-! SUPPORT. The assembler's tables (30_encoding.md R59, R67, R68). -/

namespace Sys2Proof.Machine

/-- The mnemonics that take an operand are the keys of `operandRows`. -/
theorem operandMnemonics_contains (m : String) : operandMnemonics.contains m = (operandRows.lookup m).isSome := by
  rw [Bool.eq_iff_iff, List.contains_iff_mem, lookup_isSome_iff]
  rfl

/-- The mnemonics that take none are the keys of `bareRows` and the pseudo-instructions. -/
theorem bareMnemonics_contains (m : String) :
    bareMnemonics.contains m = ((bareRows.lookup m).isSome || (pseudoRows.lookup m).isSome) := by
  rw [Bool.eq_iff_iff, Bool.or_eq_true, List.contains_iff_mem, lookup_isSome_iff, lookup_isSome_iff, ← List.mem_append]
  rfl

/-- A pseudo-instruction is no mnemonic that takes an operand. -/
theorem operandRows_lookup_of_pseudo {m : String} (h : (pseudoRows.lookup m).isSome) : operandRows.lookup m = none := by
  have hkeys : ∀ k ∈ pseudoRows.map Prod.fst, operandRows.lookup k = none := by decide
  exact hkeys m ((lookup_isSome_iff _ _).mp h)

/-- A mnemonic of `bareRows` is none that takes an operand. -/
theorem operandRows_lookup_of_bare {m : String} (h : (bareRows.lookup m).isSome) : operandRows.lookup m = none := by
  have hkeys : ∀ k ∈ bareRows.map Prod.fst, operandRows.lookup k = none := by decide
  exact hkeys m ((lookup_isSome_iff _ _).mp h)

/-- `CHGTYPE`, which also takes a type's name, takes an operand. -/
theorem ne_chgtype_of_operandRows_lookup {m : String} (h : operandRows.lookup m = none) : m ≠ "CHGTYPE" := by
  rintro rfl
  cases h

/-- A pseudo-instruction's expansion assembles (R68). -/
theorem assembleCore_expansion {m : String} {expansion : AsmLine} (h : pseudoRows.lookup m = some expansion) :
    ∃ i, assembleCore expansion = .ok i := by
  have hrows : ∀ r ∈ pseudoRows, ∃ i, assembleCore r.2 = .ok i := by
    simp only [pseudoRows, List.forall_mem_cons]
    exact ⟨⟨_, rfl⟩, ⟨_, rfl⟩, ⟨_, rfl⟩, ⟨_, rfl⟩, ⟨_, rfl⟩, ⟨_, rfl⟩, by simp⟩
  exact hrows _ (mem_of_lookup h)

/-- A line without an operand assembles exactly if its mnemonic is in `bareRows`. -/
theorem assembleCore_bare_iff (m : String) :
    (∃ i, assembleCore ⟨m, none⟩ = .ok i) ↔ (bareRows.lookup m).isSome := by
  unfold assembleCore
  cases hbare : bareRows.lookup m with
  | none => cases operandRows.lookup m <;> simp
  | some row => simp [operandRows_lookup_of_bare (m := m) (by rw [hbare]; rfl)]

/-- A line with a literal assembles exactly if its mnemonic takes an operand and the literal has 64 bits. -/
theorem assembleCore_literal_iff (m : String) (n : Nat) :
    (∃ i, assembleCore ⟨m, some (.literal n)⟩ = .ok i) ↔ (operandRows.lookup m).isSome ∧ n < 2 ^ 64 := by
  unfold assembleCore
  cases operandRows.lookup m with
  | none => cases bareRows.lookup m <;> simp
  | some row =>
    by_cases hn : n < 2 ^ 64
    · exact iff_of_true ⟨_, if_pos hn⟩ ⟨rfl, hn⟩
    · exact iff_of_false (by simp only [if_neg hn]; simp) fun h => hn h.2

/-- A line with a type's name assembles exactly if it is a `CHGTYPE`. -/
theorem assembleCore_typeName_iff (m : String) (t : SegmentType) :
    (∃ i, assembleCore ⟨m, some (.typeName t)⟩ = .ok i) ↔ m = "CHGTYPE" := by
  unfold assembleCore
  cases hop : operandRows.lookup m with
  | none => cases bareRows.lookup m <;> simp [ne_chgtype_of_operandRows_lookup hop]
  | some row => by_cases hm : m = "CHGTYPE" <;> simp [hm]

/-- Settles O49: a pseudo-instruction takes no operand and its expansion assembles; any other line is decided by the two
tables. -/
theorem assemblerTakesExactlyTheWellFormedLines : Obligations.AssemblerTakesExactlyTheWellFormedLines := by
  unfold Obligations.AssemblerTakesExactlyTheWellFormedLines
  rintro ⟨m, operand⟩
  unfold assembleLine AsmLine.wellFormed
  simp only [operandMnemonics_contains, bareMnemonics_contains]
  cases hpseudo : pseudoRows.lookup m with
  | none =>
    cases operand with
    | none => simp [assembleCore_bare_iff]
    | some o =>
      cases o with
      | literal n => simp [assembleCore_literal_iff]
      | typeName t => simp [assembleCore_typeName_iff]
  | some expansion =>
    have hop : operandRows.lookup m = none := operandRows_lookup_of_pseudo (by rw [hpseudo]; rfl)
    cases operand with
    | none => simp [assembleCore_expansion hpseudo]
    | some o =>
      cases o with
      | literal n => simp [hop]
      | typeName t => simp [ne_chgtype_of_operandRows_lookup hop]

/-- Settles O50: the six lines, assembled. -/
theorem pseudoInstructionsExpand : Obligations.PseudoInstructionsExpand := by
  unfold Obligations.PseudoInstructionsExpand
  decide

end Sys2Proof.Machine
end

section
/-! SUPPORT. The low bits of an operand and a field's response, as numbers (30_encoding.md R65, 40_codec.md R71). -/

namespace Sys2Proof.Machine

/-- A field of `w` bits takes the operand modulo `2 ^ w` (R71). -/
theorem argLow_eq_ofNat_mod (w : Nat) (arg : Word) : argLow w arg = BitVec.ofNat w (arg.toNat % 2 ^ w) := by
  apply BitVec.eq_of_toNat_eq
  rw [argLow, BitVec.toNat_setWidth, BitVec.toNat_ofNat, Nat.mod_mod]

/-- A one-bit field takes whether the operand is odd (R71). -/
theorem argBit_eq_decide_odd (arg : Word) : argBit arg = decide (arg.toNat % 2 = 1) := by
  rw [argBit, BitVec.getLsbD, Nat.testBit_zero]

/-- A boolean response is the number 1 or 0 (R65). -/
theorem boolWord_eq_ite (b : Bool) : boolWord b = if b then 1 else 0 := by
  cases b <;> rfl

/-- A mutating command loads its function of `D` (20_memory.md R44). -/
theorem mutate_loads (f : Descriptor → Descriptor) (s : State) : Loads (mutate f s) s (f s.d) := rfl

/-- Settles O12: a `SET` loads `Descriptor.set`, and the bits it takes from the operand are the operand modulo `2 ^ w`. -/
theorem setWritesItsFieldAlone : Obligations.SetWritesItsFieldAlone := by
  unfold Obligations.SetWritesItsFieldAlone
  intro s arg
  have hset (f : Field) : Loads (mutate (·.set f arg) s) s (s.d.set f arg) := mutate_loads _ s
  simp only [← argLow_eq_ofNat_mod, ← argBit_eq_decide_odd]
  exact ⟨hset .limit, hset .base, hset .type, hset .ring, hset .present, hset .avlBit, hset .use32, hset .use64,
    hset .pageGranularity⟩

/-- Settles O13: a `GET` answers `Descriptor.get`, the zero-extended field. -/
theorem getAnswersItsField : Obligations.GetAnswersItsField := by
  unfold Obligations.GetAnswersItsField
  intro s arg
  have hget (f : Field) : Answers (query (·.get f) s) s (s.d.get f) := query_answers _ s
  simp only [BitVec.ofNat_toNat, ← boolWord_eq_ite]
  exact ⟨hget .limit, hget .base, hget .type, hget .ring, hget .present, hget .avlBit, hget .use32, hget .use64,
    hget .pageGranularity⟩

end Sys2Proof.Machine
end

section
/-! SUPPORT. What class, expand-down, code size and attribute word say of each other (41_classify.md R90 to R93, R98). -/

namespace Sys2Proof.Machine

/-- The attributes of a data segment (R91). -/
theorem Descriptor.attributesOf_of_data {d : Descriptor} (h : d.classify = .data) :
    d.attributesOf = .data (d.type.getLsbD 0) (d.type.getLsbD 1) (d.type.getLsbD 2) := by
  rw [attributesOf, h]

/-- The attributes are tagged with the class (R91). -/
theorem Descriptor.attributesOf_tag (d : Descriptor) : d.attributesOf.tag = d.classify := by
  unfold attributesOf
  cases d.classify <;> rfl

/-- Expand-down is bit 2 of the type, in a data segment alone (R92). -/
theorem Descriptor.isExpandDown_iff (d : Descriptor) :
    d.isExpandDown = true ↔ d.classify = .data ∧ d.type.getLsbD 2 = true := by
  unfold isExpandDown attributesOf
  cases d.classify <;> simp

/-- Bit 2 of a type from 16 to 23 says whether it is one of 20 to 23. -/
theorem type_bit_two {t : BitVec 5} (hge : ¬ t.toNat < 16) (hlt : t.toNat < 24) :
    t.getLsbD 2 = true ↔ t.toNat / 4 = 5 := by
  rw [BitVec.getLsbD, Nat.testBit_eq_decide_div_mod_eq, decide_eq_true_iff]
  omega

/-- Expand-down in terms of `present` and the number of the type (R92). -/
theorem Descriptor.isExpandDown_iff_type (d : Descriptor) :
    d.isExpandDown = true ↔ d.present = true ∧ d.type.toNat / 4 = 5 := by
  rw [isExpandDown_iff]
  obtain ⟨hp, hclass⟩ | ⟨hp, hn, hclass⟩ | ⟨hp, hge, hlt, hclass⟩ | ⟨hp, -, hge, hclass⟩ := d.classify_type_cases
  · simp [hp, hclass]
  · simp only [hp, hclass, reduceCtorEq, true_and, false_and, false_iff]
    omega
  · simp only [hp, hclass, true_and, type_bit_two hge hlt]
  · simp only [hp, hclass, reduceCtorEq, true_and, false_and, false_iff]
    omega

/-- Size 64 is that of code with `use64` alone (R93). -/
theorem Descriptor.codeSize_eq_size64_iff (d : Descriptor) :
    d.codeSize = some .size64 ↔ d.classify = .code ∧ d.use64 = true ∧ d.use32 = false := by
  unfold codeSize
  cases d.classify with
  | notPresent => simp
  | system => simp
  | code => cases d.use64 <;> cases d.use32 <;> simp
  | data => cases d.use64 <;> cases d.use32 <;> simp

/-- Code has no size in a mode conflict alone (R93). -/
theorem Descriptor.codeSize_eq_none_iff_of_code {d : Descriptor} (h : d.classify = .code) :
    d.codeSize = none ↔ d.use32 = true ∧ d.use64 = true := by
  rw [codeSize, h]
  cases d.use64 <;> cases d.use32 <;> simp

/-- The attribute word's low two bits are the class code (R62). -/
theorem Descriptor.attributesOf_word_mod_four (d : Descriptor) :
    d.attributesOf.word.toNat % 4 = (code2 d.classify).toNat := by
  have hcode : (code2 d.classify).toNat < 4 := (code2 d.classify).isLt
  rw [Attributes.word_toNat, attributesOf_tag]
  omega

/-- Bit 6 of a data segment's attribute word is its expand-down attribute (R62). -/
theorem Attributes.data_word_bit_six : ∀ accessed writable expandDown : Bool,
    (Attributes.data accessed writable expandDown).word.getLsbD 6 = expandDown := by
  decide

/-- Settles O15: `present` is bit 47 and bits 4 and 3 of the type are bits 44 and 43. -/
theorem classIsReadFromThreePackedBits : Obligations.ClassIsReadFromThreePackedBits := by
  unfold Obligations.ClassIsReadFromThreePackedBits
  intro v
  obtain ⟨-, -, htype, -, hpresent, -⟩ := Descriptor.decode_toNat v
  obtain ⟨hp, hclass⟩ | ⟨hp, hn, hclass⟩ | ⟨hp, hge, hlt, hclass⟩ | ⟨hp, -, hge, hclass⟩ :=
    (Descriptor.decode v).classify_type_cases
  all_goals rw [hclass, ← hpresent, hp]
  · exact (if_pos rfl).symm
  · rw [if_neg (by decide), if_pos (by omega)]
  · rw [if_neg (by decide), if_neg (by omega), if_neg (by omega)]
  · rw [if_neg (by decide), if_neg (by omega), if_pos (by omega)]

/-- Settles O17: the response is `isExpandDown`, which is true for types 20 to 23 that are present. -/
theorem isxdAnswersForExpandDownData : Obligations.IsxdAnswersForExpandDownData := by
  unfold Obligations.IsxdAnswersForExpandDownData
  intro s arg
  have hanswer : Answers (exec (.isxd arg) s) s (boolWord s.d.isExpandDown) :=
    query_answers (fun d => boolWord d.isExpandDown) s
  simp only [boolWord_eq_ite, s.d.isExpandDown_iff_type] at hanswer
  exact ⟨s.d.isExpandDown_iff_type, hanswer⟩

/-- Settles O19: each law is the lemma of its function, and the four functions read `present`, `type` and the two size
flags only. -/
theorem classificationLaws : Obligations.ClassificationLaws := by
  unfold Obligations.ClassificationLaws
  intro d
  refine ⟨fun h => ?_, d.codeSize_eq_size64_iff.mp, Descriptor.codeSize_eq_none_iff_of_code, ?_,
    d.attributesOf_word_mod_four, fun hdata => ?_⟩
  · obtain ⟨hdata, -⟩ := d.isExpandDown_iff.mp h
    exact hdata
  · intro _ _ _ _ _ e
    exact ⟨rfl, rfl, rfl, rfl⟩
  · rw [Descriptor.isExpandDown, Descriptor.attributesOf_of_data hdata, Attributes.data_word_bit_six]

end Sys2Proof.Machine
end

section
/-! SUPPORT. When a descriptor has the notes reserved and invalid (43_notes.md R112 to R116). -/

namespace Sys2Proof.Machine

variable {d : Descriptor} {w : NotesWork} {tag : Tag}

@[simp] theorem CpuLevel.reserved_ne_tag (level : CpuLevel) : .reserved ≠ level.tag := by
  cases level <;> decide

@[simp] theorem CpuLevel.invalid_ne_tag (level : CpuLevel) : .invalid ≠ level.tag := by
  cases level <;> decide

/-- The last step adds the compat tag where it is not suppressed (R116). -/
theorem mem_notesFinish : tag ∈ notesFinish w ↔ tag ∈ w.out ∨ w.suppress = false ∧ tag = w.min.tag := by
  unfold notesFinish
  cases w.suppress <;> simp

/-- Step 2a notes the flags of a system descriptor as reserved (R112). -/
theorem mem_notesSystemFlags :
    tag ∈ (notesSystemFlags d w).out ↔ tag ∈ w.out ∨ tag = .reserved ∧ (d.use64 = true ∨ d.use32 = true) := by
  unfold notesSystemFlags
  split <;> simp_all

/-- Step 2b notes a subtype of the invalid list as invalid (R113). -/
theorem mem_notesSubtype :
    tag ∈ (notesSubtype d w).out ↔ tag ∈ w.out ∨ tag = .invalid ∧ d.subtype ∈ invalidSubtypes := by
  unfold notesSubtype
  split
  · simp [*]
  · split <;> simp [*]

/-- Step 3 notes a mode conflict as invalid, and base or limit of 64-bit code as reserved (R114). -/
theorem mem_notesCode :
    tag ∈ (notesCode d w).out ↔
      tag ∈ w.out ∨ tag = .invalid ∧ d.codeSize = none ∨
        tag = .reserved ∧ d.codeSize = some .size64 ∧ (d.base ≠ 0 ∨ d.limit ≠ 0) := by
  unfold notesCode
  cases d.codeSize with
  | none => simp
  | some size =>
    cases size with
    | size64 => dsimp only; split <;> simp_all
    | size32 => simp
    | size16 => simp

/-- Step 4 notes the `use64` of data as reserved (R115). -/
theorem mem_notesData : tag ∈ (notesData d w).out ↔ tag ∈ w.out ∨ tag = .reserved ∧ d.use64 = true := by
  unfold notesData
  cases d.use64 <;> simp

/-- The baseline notes nothing (R110, R111). -/
@[simp] theorem notesBaseline_out (d : Descriptor) : (notesBaseline d).out = [] := rfl

/-- The note reserved, class by class: a flag of a system descriptor, base or limit of 64-bit code, `use64` of data. -/
theorem Descriptor.reserved_mem_configurationNotes_iff (d : Descriptor) :
    .reserved ∈ d.configurationNotes ↔
      (d.classify = .system ∧ (d.use64 = true ∨ d.use32 = true)) ∨
      (d.codeSize = some .size64 ∧ (d.base ≠ 0 ∨ d.limit ≠ 0)) ∨
      (d.classify = .data ∧ d.use64 = true) := by
  unfold configurationNotes
  cases hclass : d.classify with
  | notPresent => simp [mem_notesFinish, d.codeSize_eq_size64_iff, hclass]
  | system => simp [mem_notesFinish, mem_notesSubtype, mem_notesSystemFlags, d.codeSize_eq_size64_iff, hclass]
  | code => simp [mem_notesFinish, mem_notesCode]
  | data => simp [mem_notesFinish, mem_notesData, d.codeSize_eq_size64_iff, hclass]

/-- The note invalid, class by class: a subtype of the invalid list, code without a size. -/
theorem Descriptor.invalid_mem_configurationNotes_iff (d : Descriptor) :
    .invalid ∈ d.configurationNotes ↔
      (d.classify = .system ∧ d.subtype ∈ invalidSubtypes) ∨ (d.classify = .code ∧ d.codeSize = none) := by
  unfold configurationNotes
  cases d.classify with
  | notPresent => simp [mem_notesFinish]
  | system => simp [mem_notesFinish, mem_notesSubtype, mem_notesSystemFlags]
  | code => simp [mem_notesFinish, mem_notesCode]
  | data => simp [mem_notesFinish, mem_notesData]

end Sys2Proof.Machine
end

section
/-! SUPPORT. `CHGTYPE`, target by target (42_transitions.md R100 to R105). -/

namespace Sys2Proof.Machine

/-- The target is the type whose code the operand is modulo 4 (30_encoding.md R59, R61). -/
theorem argTarget_of_mod_four {arg : Word} {t : SegmentType} (h : arg.toNat % 4 = (code2 t).toNat) :
    argTarget arg = t := by
  have hcode : code2 (argTarget arg) = code2 t := BitVec.eq_of_toNat_eq ((argTarget_code arg).trans h)
  rw [← type2_code2 (argTarget arg), hcode, type2_code2]

/-- `CHGTYPE` loads the change to the type its operand codes (R107). -/
theorem chgtypeUnder_loads (c : Config) {arg : Word} {t : SegmentType} (h : arg.toNat % 4 = (code2 t).toNat)
    (s : State) : Loads (chgtypeUnder c arg s) s (s.d.changeType c t) := by
  rw [← argTarget_of_mod_four h]
  exact mutate_loads _ s

/-- This hardware's `CHGTYPE` is the one of its configuration (R107). -/
theorem exec_chgtype (arg : Word) (s : State) : exec (.chgtype arg) s = chgtypeUnder Config.block arg s := rfl

variable {c : Config} {d : Descriptor} {t : SegmentType}

/-- Nothing changes where the class is the target already (R100). -/
theorem Descriptor.changeType_of_classify_eq (h : d.classify = t) : d.changeType c t = d := if_pos h

theorem Descriptor.changeType_notPresent (h : d.classify ≠ .notPresent) :
    d.changeType c .notPresent = toNotPresent c := if_neg h

theorem Descriptor.changeType_system (h : d.classify ≠ .system) : d.changeType c .system = d.toSystem := if_neg h

theorem Descriptor.changeType_code (h : d.classify ≠ .code) : d.changeType c .code = d.toCode := if_neg h

theorem Descriptor.changeType_data (h : d.classify ≠ .data) : d.changeType c .data = d.toData := if_neg h

@[simp] theorem Descriptor.toSystem_classify (d : Descriptor) : d.toSystem.classify = .system := by simp [classify]
@[simp] theorem Descriptor.toCode_classify (d : Descriptor) : d.toCode.classify = .code := by simp [classify]
@[simp] theorem Descriptor.toData_classify (d : Descriptor) : d.toData.classify = .data := by simp [classify]

/-- Subtype 1 is the one that a change to system writes (R103). -/
@[simp] theorem Descriptor.toSystem_subtype (d : Descriptor) : d.toSystem.subtype = 1#4 := rfl

/-- A descriptor zeroed under `NP_SETS_PRESENT` is a present system descriptor (R102). -/
theorem toNotPresent_classify (c : Config) :
    (toNotPresent c).classify = if c.npSetsPresent then .system else .notPresent := by
  cases h : c.npSetsPresent <;> simp [Descriptor.classify, h]

/-- A change misses its target only when it sets `present` on the way to notPresent (R102, R109). -/
theorem Descriptor.changeType_classify_eq_iff (c : Config) (d : Descriptor) (t : SegmentType) :
    (d.changeType c t).classify = t ↔
      ¬ (c.npSetsPresent = true ∧ t = .notPresent ∧ d.classify ≠ .notPresent) := by
  by_cases hclass : d.classify = t
  · rw [changeType_of_classify_eq hclass]
    simp only [hclass, true_iff]
    rintro ⟨-, hnp, hne⟩
    exact hne hnp
  cases t with
  | notPresent => simp [changeType_notPresent hclass, toNotPresent_classify, hclass]
  | system => simp [changeType_system hclass]
  | code => simp [changeType_code hclass]
  | data => simp [changeType_data hclass]

/-- Changing to a type twice is changing to it once: the second change finds its target, or zeroes again (R109). -/
theorem Descriptor.changeType_changeType (c : Config) (d : Descriptor) (t : SegmentType) :
    (d.changeType c t).changeType c t = d.changeType c t := by
  by_cases hclass : (d.changeType c t).classify = t
  · exact changeType_of_classify_eq hclass
  · have hmiss := mt (d.changeType_classify_eq_iff c t).mpr hclass
    obtain ⟨-, rfl, hd⟩ := not_not.mp hmiss
    rw [changeType_notPresent hclass, changeType_notPresent hd]

/-- Data without `use64` has size 16 or 32 (41_classify.md R93). -/
theorem Descriptor.codeSize_of_data (hclass : d.classify = .data) (huse64 : d.use64 = false) :
    d.codeSize = some .size16 ∨ d.codeSize = some .size32 := by
  rw [codeSize, hclass]
  cases d.use32 <;> simp [huse64]

/-- Settles O20: the operand codes the target, and each clause writes out `changeType` for its target (R100). -/
theorem chgtypeWritesTheCanonicalFields : Obligations.ChgtypeWritesTheCanonicalFields := by
  unfold Obligations.ChgtypeWritesTheCanonicalFields
  intro s arg
  rw [exec_chgtype]
  have hloads {t : SegmentType} (h : arg.toNat % 4 = (code2 t).toNat) := chgtypeUnder_loads Config.block h s
  exact ⟨hloads (t := .notPresent), hloads (t := .system), hloads (t := .code), hloads (t := .data)⟩

/-- Settles O21: in either build the zeroed descriptor is loaded, and with the parameter true it is one constant. -/
theorem chgtypeToNotPresentInEitherBuild : Obligations.ChgtypeToNotPresentInEitherBuild := by
  unfold Obligations.ChgtypeToNotPresentInEitherBuild
  refine ⟨fun c s arg harg hclass => ?_, fun s arg => ⟨exec_chgtype arg s, rfl⟩, by decide, rfl, by decide⟩
  have hloads := chgtypeUnder_loads c (t := .notPresent) harg s
  rwa [Descriptor.changeType_notPresent hclass] at hloads

/-- Settles O22: the one way to miss the target needs the parameter true. -/
theorem changeTypeReachesItsTarget : Obligations.ChangeTypeReachesItsTarget := by
  unfold Obligations.ChangeTypeReachesItsTarget
  intro c d t
  constructor
  · intro hc
    simp [d.changeType_classify_eq_iff, hc]
  · intro hc
    simp [d.changeType_classify_eq_iff, hc]

/-- Settles O23: the second change finds its target reached, or zeroes a zeroed descriptor. -/
theorem changeTypeTwiceIsOnce : Obligations.ChangeTypeTwiceIsOnce :=
  Descriptor.changeType_changeType

/-- Settles O24: the fields each target writes decide the two notes and the size, but for code, which keeps the flags. -/
theorem changeTypeNeverLandsOnABadSystemOrDataSegment :
    Obligations.ChangeTypeNeverLandsOnABadSystemOrDataSegment := by
  unfold Obligations.ChangeTypeNeverLandsOnABadSystemOrDataSegment
  intro c d
  refine ⟨fun hclass => ?_, fun hclass => ?_, fun hclass => ?_⟩
  · rw [Descriptor.changeType_system hclass, Descriptor.invalid_mem_configurationNotes_iff,
      Descriptor.reserved_mem_configurationNotes_iff]
    simp [Descriptor.codeSize_eq_size64_iff, invalidSubtypes]
  · rw [Descriptor.changeType_data hclass, Descriptor.invalid_mem_configurationNotes_iff,
      Descriptor.reserved_mem_configurationNotes_iff]
    exact ⟨by simp, by simp [Descriptor.codeSize_eq_size64_iff], Descriptor.codeSize_of_data d.toData_classify rfl⟩
  · rw [Descriptor.changeType_code hclass, Descriptor.reserved_mem_configurationNotes_iff]
    refine ⟨Descriptor.codeSize_eq_none_iff_of_code d.toCode_classify, ?_⟩
    simp [Descriptor.codeSize_eq_size64_iff, and_assoc]

end Sys2Proof.Machine
end

section
/-! SUPPORT. `CLRRSV`, class by class (42_transitions.md R106). -/

namespace Sys2Proof.Machine

variable {d : Descriptor}

theorem Descriptor.clearAllReserved_of_notPresent (h : d.classify = .notPresent) : d.clearAllReserved = d := by
  rw [clearAllReserved, h]

theorem Descriptor.clearAllReserved_of_system (h : d.classify = .system) :
    d.clearAllReserved = { d with use64 := false, use32 := false } := by
  rw [clearAllReserved, h]

theorem Descriptor.clearAllReserved_of_code (h : d.classify = .code) :
    d.clearAllReserved = if d.codeSize = some .size64 then { d with base := 0, limit := 0 } else d := by
  rw [clearAllReserved, h]

theorem Descriptor.clearAllReserved_of_size64 (h : d.codeSize = some .size64) :
    d.clearAllReserved = { d with base := 0, limit := 0 } := by
  obtain ⟨hclass, -⟩ := d.codeSize_eq_size64_iff.mp h
  rw [clearAllReserved_of_code hclass, if_pos h]

theorem Descriptor.clearAllReserved_of_data (h : d.classify = .data) :
    d.clearAllReserved = { d with use64 := false } := by
  rw [clearAllReserved, h]

/-- Clearing writes neither `present` nor `type`, which the class is read from (41_classify.md R90). -/
theorem Descriptor.clearAllReserved_classify (d : Descriptor) : d.clearAllReserved.classify = d.classify := by
  obtain heq | ⟨-, heq⟩ | ⟨-, heq⟩ | ⟨-, heq⟩ := d.clearAllReserved_cases <;> rw [heq] <;> rfl

/-- Clearing twice is clearing once: a cleared descriptor is of the same class and code size (R109). -/
theorem Descriptor.clearAllReserved_clearAllReserved (d : Descriptor) :
    d.clearAllReserved.clearAllReserved = d.clearAllReserved := by
  obtain heq | ⟨hclass, heq⟩ | ⟨⟨-, hsize⟩, heq⟩ | ⟨hclass, heq⟩ := d.clearAllReserved_cases
  · rw [heq, heq]
  · rw [heq]; exact clearAllReserved_of_system hclass
  · rw [heq]; exact clearAllReserved_of_size64 hsize
  · rw [heq]; exact clearAllReserved_of_data hclass

/-- What clearing leaves as it is has no field to note as reserved (R106, R112, R114, R115). -/
theorem Descriptor.reserved_not_mem_of_clearAllReserved_eq (h : d.clearAllReserved = d) :
    .reserved ∉ d.configurationNotes := by
  rw [d.reserved_mem_configurationNotes_iff]
  rintro (⟨hclass, hflag⟩ | ⟨hsize, hfield⟩ | ⟨hclass, huse64⟩)
  · rw [clearAllReserved_of_system hclass] at h
    rw [← h] at hflag
    simp at hflag
  · rw [clearAllReserved_of_size64 hsize] at h
    rw [← h] at hfield
    simp at hfield
  · rw [clearAllReserved_of_data hclass] at h
    rw [← h] at huse64
    cases huse64

/-- Clearing keeps the code size of all but data: it writes no flag of code (R106, R93). -/
theorem Descriptor.clearAllReserved_codeSize (h : d.classify ≠ .data) : d.clearAllReserved.codeSize = d.codeSize := by
  obtain heq | ⟨hclass, heq⟩ | ⟨-, heq⟩ | ⟨hclass, -⟩ := d.clearAllReserved_cases
  · rw [heq]
  · rw [codeSize, codeSize, d.clearAllReserved_classify, hclass]
  · rw [heq]; rfl
  · exact absurd hclass h

/-- Settles O25: each class clears its fields, and code those of the one configuration of size 64. -/
theorem clrrsvClearsTheReservedFields : Obligations.ClrrsvClearsTheReservedFields := by
  unfold Obligations.ClrrsvClearsTheReservedFields
  intro s arg
  have hloads : Loads (exec (.clrrsv arg) s) s s.d.clearAllReserved := mutate_loads _ s
  obtain ⟨hp, hclass⟩ | ⟨hp, hn, hclass⟩ | ⟨hp, hge, hlt, hclass⟩ | ⟨hp, hge, hge', hclass⟩ := s.d.classify_type_cases
  · simpa [hp, Descriptor.clearAllReserved_of_notPresent hclass] using hloads
  · simpa [hp, hn, Descriptor.clearAllReserved_of_system hclass] using hloads
  · simpa [hp, hge, hlt, Descriptor.clearAllReserved_of_data hclass] using hloads
  · simpa [hp, hge, hge', Descriptor.clearAllReserved_of_code hclass, Descriptor.codeSize_eq_size64_iff, hclass]
      using hloads

/-- Settles O26: as clearing is idempotent, what it leaves is as it leaves it, and so has no reserved note. -/
theorem clearAllReservedLaws : Obligations.ClearAllReservedLaws := by
  unfold Obligations.ClearAllReservedLaws
  intro d
  refine ⟨d.clearAllReserved_classify, d.clearAllReserved_clearAllReserved,
    Descriptor.reserved_not_mem_of_clearAllReserved_eq d.clearAllReserved_clearAllReserved,
    Descriptor.clearAllReserved_codeSize, fun hdata => ?_⟩
  rw [Descriptor.clearAllReserved_of_data hdata]
  exact Descriptor.codeSize_of_data hdata rfl

end Sys2Proof.Machine
end

section
/-! SUPPORT. The compat tag that step 1 decides, by the packed bits 63:48 (43_notes.md R111). -/

namespace Sys2Proof.Machine

/-- The compat tag of step 1's level, R118's `c(F)`. -/
def Descriptor.baselineTag (d : Descriptor) : Tag := if d.uses386 then .compat386 else .compat286

@[simp] theorem Descriptor.baselineTag_eq_compat386_iff (d : Descriptor) :
    d.baselineTag = .compat386 ↔ d.uses386 = true := by
  unfold baselineTag
  split <;> simp [*]

@[simp] theorem Descriptor.baselineTag_eq_compat286_iff (d : Descriptor) :
    d.baselineTag = .compat286 ↔ d.uses386 = false := by
  unfold baselineTag
  split <;> simp [*]

@[simp] theorem Descriptor.baselineTag_ne_compatX8664 (d : Descriptor) : d.baselineTag ≠ .compatX8664 := by
  unfold baselineTag
  split <;> decide

@[simp] theorem notesBaseline_min_tag (d : Descriptor) : (notesBaseline d).min.tag = d.baselineTag := by
  unfold notesBaseline Descriptor.baselineTag
  split <;> rfl

/-- Step 1 reaches 386 at most, so escalating its level gives 386. -/
@[simp] theorem notesBaseline_min_atLeast386 (d : Descriptor) : (notesBaseline d).min.atLeast386 = .i386 := by
  unfold notesBaseline
  split <;> rfl

@[simp] theorem CpuLevel.i386_tag : CpuLevel.i386.tag = .compat386 := rfl
@[simp] theorem CpuLevel.x8664_tag : CpuLevel.x8664.tag = .compatX8664 := rfl

@[simp] theorem notesBaseline_suppress (d : Descriptor) : (notesBaseline d).suppress = false := rfl

/-- The packed bits 63:48 as a number: the two upper pieces and the four flags (30_encoding.md R50). -/
theorem Descriptor.encode_toNat_div (d : Descriptor) :
    d.encode.toNat / 2 ^ 48 =
      d.limit.toNat / 2 ^ 16 + d.avlBit.toNat * 2 ^ 4 + d.use64.toNat * 2 ^ 5 + d.use32.toNat * 2 ^ 6
        + d.pageGranularity.toNat * 2 ^ 7 + d.base.toNat / 2 ^ 24 * 2 ^ 8 := by
  have htype := d.type.isLt
  have hring := d.ring.isLt
  have hpresent := d.present.toNat_lt
  rw [d.encode_toNat]
  omega

/-- The high piece of a field is nonzero exactly if the quotient of the field's number is. -/
theorem highPiece_ne_zero_iff {k n : Nat} (v : BitVec (k + n)) :
    (v.extractLsb' k n != 0) = true ↔ v.toNat / 2 ^ k ≠ 0 := by
  have hlt : v.toNat / 2 ^ k < 2 ^ n := Nat.div_lt_of_lt_mul (by rw [← pow_add]; exact v.isLt)
  rw [bne_iff_ne, Ne, ← BitVec.toNat_inj, toNat_slice, Nat.mod_eq_of_lt hlt]
  rfl

/-- Some 386-only field is used exactly if one of the packed bits 63:48 is set (R111). -/
theorem Descriptor.uses386_iff (d : Descriptor) : d.uses386 = true ↔ d.encode.toNat / 2 ^ 48 ≠ 0 := by
  have hbit (b : Bool) : b = true ↔ b.toNat ≠ 0 := by cases b <;> decide
  have hlimit := highPiece_ne_zero_iff (k := 16) (n := 4) d.limit
  have hbase := highPiece_ne_zero_iff (k := 24) (n := 8) d.base
  simp only [uses386, Bool.or_eq_true, hlimit, hbase]
  rw [d.encode_toNat_div, hbit d.avlBit, hbit d.use64, hbit d.use32, hbit d.pageGranularity]
  omega

theorem Descriptor.baselineTag_eq_encode (d : Descriptor) :
    d.baselineTag = if d.encode.toNat / 2 ^ 48 ≠ 0 then .compat386 else .compat286 := by
  simp only [baselineTag, d.uses386_iff]

/-- A size flag is one of the 386-only fields. -/
theorem Descriptor.uses386_of_sizeFlag {d : Descriptor} (h : d.use32 = true ∨ d.use64 = true) : d.uses386 = true := by
  obtain h | h := h <;> simp [uses386, h]

theorem Descriptor.baselineTag_of_sizeFlag {d : Descriptor} (h : d.use32 = true ∨ d.use64 = true) :
    d.baselineTag = .compat386 := if_pos (uses386_of_sizeFlag h)

end Sys2Proof.Machine
end

section
/-! SUPPORT. The whole list of notes, class by class (43_notes.md R112 to R116). -/

namespace Sys2Proof.Machine

variable {d : Descriptor}

/-- What step 2a notes of a system descriptor (R112). -/
def Descriptor.flagNotes (d : Descriptor) : List Tag := if d.use32 || d.use64 then [.reserved] else []

theorem notesSystemFlags_eq (d : Descriptor) (w : NotesWork) :
    notesSystemFlags d w = { w with out := w.out ++ d.flagNotes } := by
  unfold notesSystemFlags Descriptor.flagNotes
  rw [Bool.or_comm]
  split <;> simp

@[simp] theorem Descriptor.mem_flagNotes {tag : Tag} :
    tag ∈ d.flagNotes ↔ tag = .reserved ∧ (d.use32 = true ∨ d.use64 = true) := by
  unfold flagNotes
  split <;> simp_all

/-- Only steps 1 and 5 run for `notPresent` (R116). -/
theorem Descriptor.configurationNotes_of_notPresent (h : d.classify = .notPresent) :
    d.configurationNotes = [d.baselineTag] := by
  simp [configurationNotes, h, notesFinish]

/-- A system descriptor has the note of its flags, then invalid or a compat tag by its subtype (R112, R113). -/
theorem Descriptor.configurationNotes_of_system (h : d.classify = .system) :
    d.configurationNotes =
      d.flagNotes ++
        [if d.subtype ∈ invalidSubtypes then .invalid
         else if d.subtype ∈ i386Subtypes then .compat386
         else d.baselineTag] := by
  simp only [configurationNotes, h, notesSystemFlags_eq, notesSubtype]
  split_ifs <;> simp [notesFinish]

/-- Code in a mode conflict is invalid, code of size 64 needs an x86-64, other code what step 1 says (R114). -/
theorem Descriptor.configurationNotes_of_code (h : d.classify = .code) :
    d.configurationNotes =
      if d.use32 && d.use64 then [.invalid]
      else if d.use64 then
        (if d.base = 0 ∧ d.limit = 0 then [.compatX8664] else [.reserved, .compatX8664])
      else [d.baselineTag] := by
  simp only [configurationNotes, h, notesCode, codeSize]
  cases d.use32 <;> cases d.use64
  · simp [notesFinish]
  · by_cases hbase : d.base = 0#32 <;> by_cases hlimit : d.limit = 0#20 <;> simp [notesFinish, hbase, hlimit]
  · simp [notesFinish]
  · simp [notesFinish]

/-- Data with `use64` is reserved and has no compat tag (R115). -/
theorem Descriptor.configurationNotes_of_data (h : d.classify = .data) :
    d.configurationNotes = if d.use64 then [.reserved] else [d.baselineTag] := by
  simp only [configurationNotes, h, notesData]
  split_ifs <;> simp [notesFinish]

/-- The subtype of a type below 16 is the type (41_classify.md R91). -/
theorem Descriptor.subtype_toNat (h : d.type.toNat < 16) : d.subtype.toNat = d.type.toNat := by
  rw [subtype, toNat_slice, pow_zero, Nat.div_one]
  exact Nat.mod_eq_of_lt h

/-- The subtypes by their numbers: where the two lists overlap the invalid one wins, so 9 and 11 are left of the other
(R113). -/
theorem subtype_lists : ∀ s : BitVec 4,
    (s ∈ invalidSubtypes ↔ s.toNat ∈ [0, 4, 6, 7, 8, 10, 12, 13, 14, 15]) ∧
    (s ∉ invalidSubtypes → (s ∈ i386Subtypes ↔ s.toNat ∈ [9, 11])) := by
  decide

/-- The notes of a system descriptor by the number of its type (R118). -/
theorem Descriptor.configurationNotes_of_system_type (h : d.classify = .system) (hn : d.type.toNat < 16) :
    d.configurationNotes =
      d.flagNotes ++
        [if d.type.toNat ∈ [0, 4, 6, 7, 8, 10, 12, 13, 14, 15] then .invalid
         else if d.type.toNat ∈ [9, 11] then .compat386
         else d.baselineTag] := by
  obtain ⟨hinvalid, h386⟩ := subtype_lists d.subtype
  rw [subtype_toNat hn] at hinvalid h386
  rw [configurationNotes_of_system h]
  by_cases hs : d.subtype ∈ invalidSubtypes
  · rw [if_pos hs, if_pos (hinvalid.mp hs)]
  · rw [if_neg hs, if_neg (mt hinvalid.mpr hs)]
    simp only [h386 hs]

end Sys2Proof.Machine
end

section
namespace Sys2Proof.Machine

/-- Settles O29: each class has its list, and a size flag is a 386-only field. -/
theorem notesInClosedForm : Obligations.NotesInClosedForm := by
  unfold Obligations.NotesInClosedForm
  intro d
  dsimp only
  rw [← d.baselineTag_eq_encode]
  obtain ⟨hp, hclass⟩ | ⟨hp, hn, hclass⟩ | ⟨hp, hge, hlt, hclass⟩ | ⟨hp, hge, hge', hclass⟩ := d.classify_type_cases
  · rw [if_pos hp, Descriptor.configurationNotes_of_notPresent hclass]
  · rw [if_neg (by simp [hp]), if_pos hn, Descriptor.configurationNotes_of_system_type hclass hn, Descriptor.flagNotes]
    by_cases hflags : (d.use32 || d.use64) = true
    · rw [Descriptor.baselineTag_of_sizeFlag (by simpa using hflags)]
      split_ifs <;> rfl
    · split_ifs <;> rfl
  · rw [if_neg (by simp [hp]), if_neg hge, if_pos hlt, Descriptor.configurationNotes_of_data hclass]
  · rw [if_neg (by simp [hp]), if_neg hge, if_neg hge', Descriptor.configurationNotes_of_code hclass]
    cases huse32 : d.use32 with
    | false => simp
    | true => simp [Descriptor.baselineTag_of_sizeFlag (.inl huse32)]

end Sys2Proof.Machine
end

section
/-! SUPPORT. The eight lists of notes that there are, and which tags they hold together (43_notes.md R118). -/

namespace Sys2Proof.Machine

/-- The lists of notes in R118's table, one for each word that `NOTES` answers. -/
def noteLists : List (List Tag) :=
  [[.reserved], [.invalid], [.reserved, .invalid], [.compat286], [.compat386], [.reserved, .compat386],
   [.compatX8664], [.reserved, .compatX8664]]

theorem Descriptor.configurationNotes_mem_noteLists (d : Descriptor) : d.configurationNotes ∈ noteLists := by
  rw [notesInClosedForm d]
  split_ifs <;> decide

theorem notesWord_of_mem_noteLists : ∀ n ∈ noteLists,
    notesWord n ∈ ([0x01, 0x02, 0x03, 0x04, 0x0C, 0x0D, 0x14, 0x15] : List Word) := by
  decide

theorem nodup_of_mem_noteLists : ∀ n ∈ noteLists, n ≠ [] ∧ n.Nodup := by
  decide

/-- An invalid configuration has no minimum CPU (R116). -/
theorem compat_not_mem_of_invalid : ∀ n ∈ noteLists, Tag.invalid ∈ n →
    Tag.compat286 ∉ n ∧ Tag.compat386 ∉ n ∧ Tag.compatX8664 ∉ n := by
  decide

theorem compat286_not_mem_of_reserved : ∀ n ∈ noteLists, Tag.reserved ∈ n → Tag.compat286 ∉ n := by
  decide

/-- Reserved comes before invalid, and nothing else beside the two (R112). -/
theorem eq_of_reserved_of_invalid : ∀ n ∈ noteLists, Tag.reserved ∈ n → Tag.invalid ∈ n →
    n = [.reserved, .invalid] := by
  decide

variable {d : Descriptor}

/-- Only code of size 64 needs an x86-64 (R114). -/
theorem Descriptor.codeSize_of_compatX8664_mem (h : .compatX8664 ∈ d.configurationNotes) :
    d.codeSize = some .size64 := by
  have hbaseline : .compatX8664 ≠ d.baselineTag := d.baselineTag_ne_compatX8664.symm
  rw [codeSize_eq_size64_iff]
  cases hclass : d.classify with
  | notPresent => simp [configurationNotes_of_notPresent hclass, hbaseline] at h
  | system =>
    rw [configurationNotes_of_system hclass] at h
    split_ifs at h <;> simp [hbaseline] at h
  | code =>
    rw [configurationNotes_of_code hclass] at h
    cases huse64 : d.use64 with
    | false => simp [huse64, hbaseline] at h
    | true =>
      cases huse32 : d.use32 with
      | false => exact ⟨rfl, rfl, rfl⟩
      | true => simp [huse64, huse32] at h
  | data =>
    rw [configurationNotes_of_data hclass] at h
    split_ifs at h <;> simp [hbaseline] at h

/-- Settles O30: `NOTES` answers the word of the list, which is one of the eight. -/
theorem notesWordIsOneOfEight : Obligations.NotesWordIsOneOfEight := by
  unfold Obligations.NotesWordIsOneOfEight
  intro s arg n
  have hmem : n ∈ noteLists := s.d.configurationNotes_mem_noteLists
  have hanswer : Answers (exec (.notes arg) s) s (notesWord n) :=
    query_answers (fun d => notesWord d.configurationNotes) s
  obtain ⟨hne, hnodup⟩ := nodup_of_mem_noteLists n hmem
  refine ⟨⟨_, notesWord_of_mem_noteLists n hmem, hanswer⟩, hne, hnodup, compat_not_mem_of_invalid n hmem,
    compat286_not_mem_of_reserved n hmem, fun hx8664 => ?_⟩
  have hsize : s.d.codeSize = some .size64 := Descriptor.codeSize_of_compatX8664_mem hx8664
  obtain ⟨hclass, -⟩ := s.d.codeSize_eq_size64_iff.mp hsize
  exact ⟨hclass, hsize⟩

/-- A present descriptor of type 0 to 15 is a system descriptor (41_classify.md R90). -/
theorem Descriptor.classify_of_type_lt (hp : d.present = true) (hn : d.type.toNat < 16) : d.classify = .system := by
  obtain ⟨hnp, -⟩ | ⟨-, -, hclass⟩ | ⟨-, hge, -⟩ | ⟨-, hge, -⟩ := d.classify_type_cases
  · cases hp.symm.trans hnp
  · exact hclass
  · exact absurd hn hge
  · exact absurd hn hge

/-- Settles O28: the notes reserved and invalid have their conditions already, and what stands beside them is read off
the list by the number of the type. -/
theorem notesOfASystemDescriptor : Obligations.NotesOfASystemDescriptor := by
  unfold Obligations.NotesOfASystemDescriptor
  intro d hp hn n notes
  have hclass : d.classify = .system := Descriptor.classify_of_type_lt hp hn
  have hmem : notes ∈ noteLists := d.configurationNotes_mem_noteLists
  have hlist := Descriptor.configurationNotes_of_system_type hclass hn
  refine ⟨?_, ?_, compat_not_mem_of_invalid notes hmem, eq_of_reserved_of_invalid notes hmem, fun h => ?_, fun h => ?_⟩
  · simp [notes, d.reserved_mem_configurationNotes_iff, d.codeSize_eq_size64_iff, hclass]
  · obtain ⟨hinvalid, -⟩ := subtype_lists d.subtype
    rw [Descriptor.subtype_toNat hn] at hinvalid
    simp [notes, d.invalid_mem_configurationNotes_iff, hclass, hinvalid, n]
  · have hvalid : ∀ n ∈ [9, 11], n ∉ [0, 4, 6, 7, 8, 10, 12, 13, 14, 15] := by decide
    rw [if_neg (hvalid _ h), if_pos h] at hlist
    simp [notes, hlist]
  · have hvalid : ∀ n ∈ [1, 2, 3, 5], n ∉ [0, 4, 6, 7, 8, 10, 12, 13, 14, 15] ∧ n ∉ [9, 11] := by decide
    obtain ⟨hlegal, h286⟩ := hvalid _ h
    rw [if_neg hlegal, if_neg h286] at hlist
    simp [notes, hlist, eq_comm (b := d.baselineTag)]

end Sys2Proof.Machine
end

section
/-! SUPPORT. The two branches of the segment bounds, field by field, and the ranges of their numbers (44_bounds.md
R121 to R126). -/

namespace Sys2Proof.Machine

/-- A field of `n` bits read as an integer is in `0 .. 2 ^ n - 1`. -/
theorem fieldInt_range {n : Nat} (v : BitVec n) : 0 ≤ fieldInt v ∧ fieldInt v < 2 ^ n := by
  have hlt : v.toNat < 2 ^ n := v.isLt
  unfold fieldInt
  exact ⟨Int.natCast_nonneg _, mod_cast hlt⟩

theorem clamp_range {lo hi : Int} (h : lo ≤ hi) (x : Int) : lo ≤ clamp x lo hi ∧ clamp x lo hi ≤ hi := by
  unfold clamp
  split_ifs <;> omega

/-- From `lo` on, only the upper end clamps. -/
theorem clamp_of_le {x lo : Int} (h : lo ≤ x) (hi : Int) : clamp x lo hi = if x > hi then hi else x :=
  if_neg (not_lt.mpr h)

theorem clamp_of_gt {x lo hi : Int} (hlo : lo ≤ hi) (h : x > hi) : clamp x lo hi = hi := by
  rw [clamp_of_le (by omega), if_pos h]

variable {d : Descriptor}

/-- Expand-down data takes the expand-down branch (R122). -/
theorem Descriptor.segmentBounds_of_expandDown (h : d.isExpandDown = true) : d.segmentBounds = d.expandDownBounds :=
  if_pos h

/-- Everything else takes the normal branch (R122). -/
theorem Descriptor.segmentBounds_of_not_expandDown (h : d.isExpandDown = false) : d.segmentBounds = d.normalBounds :=
  if_neg (by simp [h])

/-- Unless it is present with type 20 to 23, a descriptor is not expand-down. -/
theorem Descriptor.isExpandDown_eq_false (h : ¬ (d.present = true ∧ d.type.toNat / 4 = 5)) :
    d.isExpandDown = false :=
  Bool.eq_false_of_not_eq_true (mt d.isExpandDown_iff_type.mp h)

variable (d)

theorem Descriptor.expandDownBounds_internalMin :
    d.expandDownBounds.internalMin = (fieldInt d.limit + 1) * d.unitSize := rfl

theorem Descriptor.expandDownBounds_internalMax : d.expandDownBounds.internalMax = d.topAddress := rfl

theorem Descriptor.expandDownBounds_size :
    d.expandDownBounds.size = d.topAddress - (fieldInt d.limit + 1) * d.unitSize + 1 := rfl

theorem Descriptor.expandDownBounds_linearMax :
    d.expandDownBounds.linearMax = clamp (fieldInt d.base + d.expandDownBounds.size - 1) 0 0xFFFFFFFF := rfl

theorem Descriptor.expandDownBounds_overflow :
    d.expandDownBounds.overflow = true ↔ fieldInt d.base + d.expandDownBounds.size - 1 > 0xFFFFFFFF :=
  decide_eq_true_iff

theorem Descriptor.normalBounds_internalMin : d.normalBounds.internalMin = 0 := rfl

theorem Descriptor.normalBounds_internalMax :
    d.normalBounds.internalMax = fieldInt d.limit * d.unitSize + (if d.pageGranularity then 4095 else 0) := rfl

/-- `size` is one less than the number of bytes: the greatest offset (R124, C2). -/
theorem Descriptor.normalBounds_size : d.normalBounds.size = d.normalBounds.internalMax :=
  add_sub_cancel_right d.normalBounds.internalMax 1

theorem Descriptor.normalBounds_overflow :
    d.normalBounds.overflow = true ↔ fieldInt d.base + d.normalBounds.internalMax > 0xFFFFFFFF :=
  decide_eq_true_iff

/-- An offset of a normal segment has at most the 20 bits of the limit and 12 of the page (R126). -/
theorem Descriptor.normalBounds_internalMax_range :
    0 ≤ d.normalBounds.internalMax ∧ d.normalBounds.internalMax ≤ 0xFFFFFFFF := by
  have hlimit := fieldInt_range d.limit
  rw [normalBounds_internalMax, unitSize]
  split_ifs <;> omega

/-- The greatest linear address of a normal segment is never below 0, so only the upper clamp acts (R125). -/
theorem Descriptor.normalBounds_linearMax :
    d.normalBounds.linearMax =
      if fieldInt d.base + d.normalBounds.internalMax > 0xFFFFFFFF then 0xFFFFFFFF
      else fieldInt d.base + d.normalBounds.internalMax := by
  have hbase := fieldInt_range d.base
  have hmax := d.normalBounds_internalMax_range
  have hraw : 0 ≤ fieldInt d.base + d.normalBounds.internalMax := by omega
  exact clamp_of_le hraw _

theorem Descriptor.topAddress_range : 0xFFFF ≤ d.topAddress ∧ d.topAddress ≤ 0xFFFFFFFF := by
  unfold topAddress
  split <;> decide

/-- The least offset of an expand-down segment is at most one beyond the greatest 32-bit offset (R126). -/
theorem Descriptor.expandDownBounds_internalMin_range :
    1 ≤ d.expandDownBounds.internalMin ∧ d.expandDownBounds.internalMin ≤ 2 ^ 32 := by
  have hlimit := fieldInt_range d.limit
  rw [expandDownBounds_internalMin, unitSize]
  split <;> omega

/-- Both branches start at `base` (R123, R124). -/
theorem Descriptor.segmentBounds_linearMin : d.segmentBounds.linearMin = fieldInt d.base := by
  unfold segmentBounds
  split <;> rfl

/-- Both branches clamp one number, and overflow says whether that number is beyond the upper end (R125). -/
theorem Descriptor.segmentBounds_linearMax_overflow :
    ∃ raw : Int, d.segmentBounds.linearMax = clamp raw 0 0xFFFFFFFF ∧
      (d.segmentBounds.overflow = true ↔ raw > 0xFFFFFFFF) := by
  unfold segmentBounds
  split
  · exact ⟨_, d.expandDownBounds_linearMax, d.expandDownBounds_overflow⟩
  · exact ⟨_, rfl, d.normalBounds_overflow⟩

/-- The range of the offsets and of `size`, branch by branch (R126). -/
theorem Descriptor.segmentBounds_offset_ranges :
    (0 ≤ d.segmentBounds.internalMin ∧ d.segmentBounds.internalMin ≤ 2 ^ 32) ∧
    (0 ≤ d.segmentBounds.internalMax ∧ d.segmentBounds.internalMax ≤ 0xFFFFFFFF) ∧
    (-0xFFFF0000 ≤ d.segmentBounds.size ∧ d.segmentBounds.size ≤ 0xFFFFFFFF) := by
  cases h : d.isExpandDown with
  | true =>
    have hmin := d.expandDownBounds_internalMin_range
    have htop := d.topAddress_range
    rw [segmentBounds_of_expandDown h, expandDownBounds_internalMax, expandDownBounds_size,
      ← expandDownBounds_internalMin]
    omega
  | false =>
    have hmax := d.normalBounds_internalMax_range
    rw [segmentBounds_of_not_expandDown h, normalBounds_internalMin, normalBounds_size]
    omega

/-- Settles O33: the offsets by branch, the least linear address as a field of 32 bits, the greatest as a clamped
number. -/
theorem boundsStayInTheirRanges : Obligations.BoundsStayInTheirRanges := by
  unfold Obligations.BoundsStayInTheirRanges
  intro d b
  obtain ⟨hmin, hmax, hsize⟩ := d.segmentBounds_offset_ranges
  obtain ⟨raw, hraw, -⟩ := d.segmentBounds_linearMax_overflow
  have hlmin : 0 ≤ b.linearMin ∧ b.linearMin ≤ 0xFFFFFFFF := by
    have hbase := fieldInt_range d.base
    simp only [b, d.segmentBounds_linearMin]
    omega
  have hlmax : 0 ≤ b.linearMax ∧ b.linearMax ≤ 0xFFFFFFFF := by
    simp only [b, hraw]
    exact clamp_range (by decide) raw
  exact ⟨hmin, hmax, hsize, hlmin, hlmax⟩

end Sys2Proof.Machine
end

section
/-! SUPPORT. The six `BND` commands answer the six bounds exactly (44_bounds.md R127 to R132). -/

namespace Sys2Proof.Machine

/-- A number of 64 signed bits is read back from its response (30_encoding.md R65). -/
theorem intWord_toInt {x : Int} (hlo : -2 ^ 63 ≤ x) (hhi : x < 2 ^ 63) : (intWord x).toInt = x := by
  rw [intWord, BitVec.toInt_ofInt]
  exact Int.bmod_eq_of_le (by omega) (by omega)

/-- A query of a number in 64 signed bits answers that number. -/
theorem query_answersInt (f : Descriptor → Int) (s : State) (hlo : -2 ^ 63 ≤ f s.d) (hhi : f s.d < 2 ^ 63) :
    AnswersInt (query (fun d => intWord (f d)) s) s (f s.d) :=
  ⟨intWord (f s.d), query_answers (fun d => intWord (f d)) s, intWord_toInt hlo hhi⟩

/-- Each `BND` command answers its field of the segment bounds. -/
structure BndAnswers (s : State) (arg : Word) (b : Bounds) : Prop where
  imin : AnswersInt (exec (.bndImin arg) s) s b.internalMin
  imax : AnswersInt (exec (.bndImax arg) s) s b.internalMax
  size : AnswersInt (exec (.bndSize arg) s) s b.size
  lmin : AnswersInt (exec (.bndLmin arg) s) s b.linearMin
  lmax : AnswersInt (exec (.bndLmax arg) s) s b.linearMax
  ovf : Answers (exec (.bndOvf arg) s) s (if b.overflow = true then 1 else 0)

/-- No bound is lost in its response, as each is in its range of R126. -/
theorem bnd_answers_segmentBounds (s : State) (arg : Word) : BndAnswers s arg s.d.segmentBounds := by
  obtain ⟨himin, himax, hsize, hlmin, hlmax⟩ := boundsStayInTheirRanges s.d
  constructor
  case imin => exact query_answersInt (·.segmentBounds.internalMin) s (by omega) (by omega)
  case imax => exact query_answersInt (·.segmentBounds.internalMax) s (by omega) (by omega)
  case size => exact query_answersInt (·.segmentBounds.size) s (by omega) (by omega)
  case lmin => exact query_answersInt (·.segmentBounds.linearMin) s (by omega) (by omega)
  case lmax => exact query_answersInt (·.segmentBounds.linearMax) s (by omega) (by omega)
  case ovf =>
    rw [← boolWord_eq_ite]
    exact query_answers (fun d => boolWord d.segmentBounds.overflow) s

/-- Settles O31: the commands answer the bounds of the expand-down branch. -/
theorem boundsOfAnExpandDownSegment : Obligations.BoundsOfAnExpandDownSegment := by
  unfold Obligations.BoundsOfAnExpandDownSegment
  intro s arg hpresent htype
  have hdown : s.d.isExpandDown = true := s.d.isExpandDown_iff_type.mpr ⟨hpresent, htype⟩
  obtain ⟨himin, himax, hsize, hlmin, hlmax, hovf⟩ := bnd_answers_segmentBounds s arg
  rw [Descriptor.segmentBounds_of_expandDown hdown] at himin himax hsize hlmin hlmax hovf
  simp only [s.d.expandDownBounds_overflow] at hovf
  exact ⟨himin, himax, hsize, hlmin, hlmax, hovf⟩

/-- Settles O32: the commands answer the bounds of the normal branch. -/
theorem boundsOfEveryOtherDescriptor : Obligations.BoundsOfEveryOtherDescriptor := by
  unfold Obligations.BoundsOfEveryOtherDescriptor
  intro s arg hother
  have hdown : s.d.isExpandDown = false := Descriptor.isExpandDown_eq_false hother
  obtain ⟨himin, himax, hsize, hlmin, hlmax, hovf⟩ := bnd_answers_segmentBounds s arg
  rw [Descriptor.segmentBounds_of_not_expandDown hdown] at himin himax hsize hlmin hlmax hovf
  rw [s.d.normalBounds_size] at hsize
  rw [s.d.normalBounds_linearMax] at hlmax
  simp only [s.d.normalBounds_overflow] at hovf
  exact ⟨himin, himax, hsize, hlmin, hlmax, hovf⟩

end Sys2Proof.Machine
end

section
/-! SUPPORT. What the bounds depend on (44_bounds.md R133). -/

namespace Sys2Proof.Machine

variable {d : Descriptor}

/-- An overflow leaves the greatest linear address at its upper clamp (R125, R133). -/
theorem Descriptor.linearMax_of_overflow (h : d.segmentBounds.overflow = true) :
    d.segmentBounds.linearMax = 0xFFFFFFFF := by
  obtain ⟨raw, hraw, hovf⟩ := d.segmentBounds_linearMax_overflow
  rw [hraw, clamp_of_gt (by decide) (hovf.mp h)]

/-- Whatever the type and `present`, the bounds are those of the branch that they select (R122). -/
theorem Descriptor.segmentBounds_eq_of_isExpandDown_eq {type : BitVec 5} {present : Bool}
    (h : ({ d with type := type, present := present } : Descriptor).isExpandDown = d.isExpandDown) :
    ({ d with type := type, present := present } : Descriptor).segmentBounds = d.segmentBounds := by
  unfold segmentBounds
  rw [h]
  rfl

/-- The normal branch does not read `use32` (R124). -/
theorem Descriptor.segmentBounds_use32_of_not_expandDown (h : d.isExpandDown = false) (use32 : Bool) :
    ({ d with use32 := use32 } : Descriptor).segmentBounds = d.segmentBounds := by
  rw [segmentBounds_of_not_expandDown h]
  exact segmentBounds_of_not_expandDown h

/-- The greatest offset of a normal segment of the byte granularity is its limit (R124). -/
theorem Descriptor.normalBounds_internalMax_of_byte (h : d.pageGranularity = false) :
    d.normalBounds.internalMax = fieldInt d.limit := by
  simp [normalBounds_internalMax, unitSize, h]

/-- Settles O34: the laws of overflow from the clamp, the independences from the branch taken, and the two worked
examples from the formulas of their branch. -/
theorem boundsLaws : Obligations.BoundsLaws := by
  unfold Obligations.BoundsLaws
  intro d b
  refine ⟨Descriptor.linearMax_of_overflow, fun hdown => ?_, fun _ _ _ => rfl,
    Descriptor.segmentBounds_use32_of_not_expandDown, fun _ _ => Descriptor.segmentBounds_eq_of_isExpandDown_eq,
    fun hdown hbyte _ hbase hlimit => ?_, fun hdown hlimit huse32 hbyte hbase => ?_⟩
  · simp only [b, Descriptor.segmentBounds_of_not_expandDown hdown]
    exact d.normalBounds_overflow
  · have hmax : d.normalBounds.internalMax = 0xFFFFF := by
      rw [Descriptor.normalBounds_internalMax_of_byte hbyte, hlimit]
      rfl
    simp only [b, Descriptor.segmentBounds_of_not_expandDown hdown]
    refine ⟨hmax, ?_, Bool.eq_false_of_not_eq_true (mt d.normalBounds_overflow.mp ?_)⟩
    · rw [d.normalBounds_linearMax, hmax, hbase]
      decide
    · rw [hmax, hbase]
      decide
  · simp only [b, Descriptor.segmentBounds_of_expandDown hdown, d.expandDownBounds_internalMin,
      d.expandDownBounds_internalMax, d.expandDownBounds_size, Descriptor.unitSize, Descriptor.topAddress, hlimit,
      huse32, hbyte]
    decide

end Sys2Proof.Machine
end

section
/-! SUPPORT. No transaction blocks: each has a next state, and so has a run over all of them (60_exceptions.md R140, R143;
70_reset_and_hazards.md R164). -/

namespace Sys2Proof.Machine

/-- A command goes on, whether its opcode is defined or reserved, and leaves the port and `draws` (R140, R143). -/
theorem runCommand_next (c : Command) (s : State) :
    ∃ s', runCommand c s = .next s' ∧ s'.port = s.port ∧ s'.draws = s.draws := by
  obtain ⟨i, -, hrun⟩ | ⟨e, -, hrun⟩ := runCommand_cases c s
  · obtain ⟨d, data, hdone⟩ := exec_completes i s
    exact ⟨_, hrun.trans hdone, rfl, rfl⟩
  · exact ⟨_, hrun, rfl, rfl⟩

/-- A transaction goes on, leaves what else stands at the port, and draws free values where `rst` is asserted. -/
theorem transact_next (t : Transaction) (s : State) :
    ∃ s', transact t s = .next s' ∧ s'.port = s.port ∧ s'.draws = s.draws + t.rst.toNat := by
  unfold transact
  cases t.rst with
  | true => exact ⟨_, rfl, rfl, rfl⟩
  | false => exact runCommand_next t.cmd s

/-- Where a transaction stands at the port, the step has a next state, which has taken exactly that one. -/
theorem step_next {s : State} {t : Transaction} {rest : List Transaction} (h : s.port = t :: rest) :
    ∃ s', step s = .next s' ∧ s'.port = rest ∧ s'.draws = s.draws + t.rst.toNat := by
  rw [step_cons h]
  exact transact_next t { s with port := rest }

/-- A run whose first step has a next state goes on from there. -/
theorem run_of_step_next {M : Host.Core} {s s' : M.State} (h : M.step s = .next s') (k : Nat) :
    M.run (k + 1) s = M.run k s' := by
  rw [Host.Core.run, h]

/-- A run over everything that stands at the port goes through, by induction on the port. -/
theorem run_port_length (port : List Transaction) (s : State) (h : s.port = port) :
    ∃ s', core.run port.length s = .next s' ∧ s'.port = [] := by
  induction port generalizing s with
  | nil => exact ⟨s, rfl, h⟩
  | cons t rest ih =>
    obtain ⟨s₁, hstep, hport, -⟩ := step_next h
    obtain ⟨s', hrun, hdone⟩ := ih s₁ hport
    exact ⟨s', (run_of_step_next (M := core) hstep rest.length).trans hrun, hdone⟩

/-- Settles O42: a transaction is a reset, an instruction or a reserved opcode, and each of the three goes on. -/
theorem everyTransactionIsAnswered : Obligations.EveryTransactionIsAnswered := by
  unfold Obligations.EveryTransactionIsAnswered
  exact fun _ => ⟨fun _ _ => step_next, step_nil⟩

/-- Settles O43: each step takes one transaction off the port, so the run over all of them ends with none left. -/
theorem everyRunCompletes : Obligations.EveryRunCompletes := by
  unfold Obligations.EveryRunCompletes
  exact fun s => run_port_length s.port s rfl

end Sys2Proof.Machine
end

section
/-! SUPPORT. The answers of the queries in a state whose descriptor is known (20_memory.md R44, 41_classify.md R94 to R97,
43_notes.md R117). -/

namespace Sys2Proof.Machine

variable {s : State} {d : Descriptor}

/-- A query answers the value of its function at the descriptor that `D` holds (R44). -/
theorem query_answers_of_d_eq {f : Descriptor → Word} {data : Word} (hd : s.d = d) (hf : f d = data) :
    Answers (query f s) s data := by
  rw [← hf, ← hd]
  exact query_answers f s

theorem classify_answers {segmentType : SegmentType} (hd : s.d = d) (h : d.classify = segmentType) (a : Word) :
    Answers (exec (.classify a) s) s ((code2 segmentType).setWidth 64) :=
  query_answers_of_d_eq (f := fun d => (code2 d.classify).setWidth 64) hd (by rw [h])

theorem attrs_answers {attributes : Attributes} (hd : s.d = d) (h : d.attributesOf = attributes) (a : Word) :
    Answers (exec (.attrs a) s) s attributes.word :=
  query_answers_of_d_eq (f := (·.attributesOf.word)) hd (by rw [h])

theorem isxd_answers {expandDown : Bool} (hd : s.d = d) (h : d.isExpandDown = expandDown) (a : Word) :
    Answers (exec (.isxd a) s) s (boolWord expandDown) :=
  query_answers_of_d_eq (f := fun d => boolWord d.isExpandDown) hd (by rw [h])

theorem csize_answers {size : Option CodeSize} (hd : s.d = d) (h : d.codeSize = size) (a : Word) :
    Answers (exec (.csize a) s) s (codeSizeWord size) :=
  query_answers_of_d_eq (f := fun d => codeSizeWord d.codeSize) hd (by rw [h])

theorem notes_answers {notes : List Tag} (hd : s.d = d) (h : d.configurationNotes = notes) (a : Word) :
    Answers (exec (.notes a) s) s (notesWord notes) :=
  query_answers_of_d_eq (f := fun d => notesWord d.configurationNotes) hd (by rw [h])

end Sys2Proof.Machine
end

section
/-! SUPPORT. The zero descriptor of reset and the descriptor of the startup fixture, function by function
(10_state.md R37, 70_reset_and_hazards.md R160, R163). -/

namespace Sys2Proof.Machine

/-- Every field register of the zero descriptor reads 0 (R37). -/
theorem Descriptor.zero_get (f : Field) : Descriptor.zero.get f = 0 := by
  cases f <;> rfl

theorem Descriptor.zero_encode : Descriptor.zero.encode = 0 := by decide

theorem Descriptor.zero_classify : Descriptor.zero.classify = .notPresent := rfl

theorem Descriptor.zero_attributesOf : Descriptor.zero.attributesOf = .notPresent := rfl

theorem Descriptor.zero_isExpandDown : Descriptor.zero.isExpandDown = false := rfl

theorem Descriptor.zero_codeSize : Descriptor.zero.codeSize = none := rfl

/-- The zero descriptor uses no 386-only field, so its one note is the 286's (43_notes.md R111, R116). -/
theorem Descriptor.zero_configurationNotes : Descriptor.zero.configurationNotes = [.compat286] := rfl

/-- The zero descriptor takes the normal branch, where base and limit 0 make every bound 0 (44_bounds.md R124). -/
theorem Descriptor.zero_segmentBounds : Descriptor.zero.segmentBounds =
    { overflow := false, size := 0, internalMin := 0, internalMax := 0, linearMin := 0, linearMax := 0 } := rfl

/-- The descriptor of the startup fixture, as R163 lists its fields. -/
def Descriptor.startup : Descriptor where
  limit := 0xFFFFF
  base := 0
  type := 0b11010
  ring := 0
  present := true
  avlBit := false
  use32 := true
  use64 := false
  pageGranularity := true

theorem Descriptor.decode_startupWord : Descriptor.decode 0x00CF9A000000FFFF = Descriptor.startup := by decide

theorem Descriptor.startup_classify : Descriptor.startup.classify = .code := rfl

/-- Type 0b11010 is readable code, neither accessed nor conforming (41_classify.md R91). -/
theorem Descriptor.startup_attributesOf : Descriptor.startup.attributesOf = .code false true false := rfl

theorem Descriptor.startup_codeSize : Descriptor.startup.codeSize = some .size32 := rfl

/-- Code of size 32 with 386-only fields in use gets the 386's note alone (43_notes.md R111, R114). -/
theorem Descriptor.startup_configurationNotes : Descriptor.startup.configurationNotes = [.compat386] := rfl

end Sys2Proof.Machine
end

section
/-! SUPPORT. Reset over a command, the queries after it, and the startup fixture (70_reset_and_hazards.md R160, R161,
R163). -/

namespace Sys2Proof.Machine

open Descriptor

/-- A transaction with `rst` asserted is the reset event, whatever command it carries (R161). -/
theorem step_of_rst {s : State} {t : Transaction} {rest : List Transaction} (hport : s.port = t :: rest)
    (hrst : t.rst = true) : step s = .next { s with port := rest }.applyReset := by
  rw [step_cons hport, transact, if_pos hrst]

/-- What loads a descriptor goes on, and `D` is that descriptor then (20_memory.md R44). -/
theorem Loads.next {o : Host.Outcome State Fault Refusal} {s : State} {d : Descriptor} (h : Loads o s d) :
    ∃ s', o = .next s' ∧ s'.d = d :=
  ⟨_, h, rfl⟩

/-- Settles O36: the step is the reset event, which writes `D` and leaves what else stands at the port. -/
theorem resetWinsOverACommand : Obligations.ResetWinsOverACommand := by
  unfold Obligations.ResetWinsOverACommand
  exact fun _ _ _ hport => ⟨_, step_of_rst hport rfl, State.applyReset_d _, State.applyReset_port _⟩

/-- Settles O37: every query answers a function of `D`, which has its value at the zero descriptor. -/
theorem queriesInTheResetState : Obligations.QueriesInTheResetState := by
  unfold Obligations.QueriesInTheResetState
  intro s a hd
  have henc : Answers (exec (.enc a) s) s 0 := query_answers_of_d_eq hd zero_encode
  have hget (f : Field) : Answers (query (·.get f) s) s 0 := query_answers_of_d_eq hd (zero_get f)
  have hbounds (g : Bounds → Word) : Answers (query (fun d => g d.segmentBounds) s) s (g ⟨false, 0, 0, 0, 0, 0⟩) :=
    query_answers_of_d_eq hd (congrArg g zero_segmentBounds)
  simp only [List.forall_mem_cons, List.not_mem_nil, false_implies, implies_true, and_true]
  exact ⟨⟨henc, hget .limit, hget .base, hget .type, hget .ring, hget .present, hget .avlBit, hget .use32, hget .use64,
      hget .pageGranularity, classify_answers hd zero_classify a, attrs_answers hd zero_attributesOf a,
      isxd_answers hd zero_isExpandDown a, csize_answers hd zero_codeSize a, hbounds (boolWord ·.overflow),
      hbounds (intWord ·.size), hbounds (intWord ·.internalMin), hbounds (intWord ·.internalMax),
      hbounds (intWord ·.linearMin), hbounds (intWord ·.linearMax)⟩,
    notes_answers hd zero_configurationNotes a⟩

/-- Settles O38: `DEC` loads the fixture's nine fields, and each of the four queries has its value there. -/
theorem startupFixture : Obligations.StartupFixture := by
  unfold Obligations.StartupFixture
  intro s a
  have hload : Loads (exec (.dec 0x00CF9A000000FFFF) s) s startup := by
    rw [← decode_startupWord]
    exact exec_dec_completes _ s
  obtain ⟨s', hdec, hd⟩ := hload.next
  exact ⟨s', hdec, hd, classify_answers hd startup_classify a, attrs_answers hd startup_attributesOf a,
    csize_answers hd startup_codeSize a, notes_answers hd startup_configurationNotes a⟩

end Sys2Proof.Machine
end
